-- ==== Sys2Proof/Word.lean ====
section
/-!
DEFINITION. The words the manual treats as bits: the bytes of a cell, the check, and the 32-bit counters.
-/

namespace Sys2Proof

/-- A byte of a cell (spec/01 R20). -/
abbrev Byte := BitVec 8

/-- The check that closes a cell (spec/01 R2). -/
abbrev Check := BitVec 16

/-- A counter of the part: 32 bits wide, wrapping (spec/00 Arithmetic, spec/11 R180). -/
abbrev Count := BitVec 32

end Sys2Proof
end

