-- ==== Sys2Proof/Config.lean ====
section
/-!
DEFINITION. What the part fixes: line addresses, the sizes of its queues and tables, and the length of the week.
The spec leaves no value open that an instruction computes, so there is no opaque constant here; the one free choice of
the model (the order of tellings, log 1) is plain data in the state.
-/

namespace Sys2Proof.Config

/-- The minutes of a week (spec/00 Quantities). -/
def weekMinutes : Nat := 10080

/-- The line master's address (spec/00 Line addresses). -/
def lineMaster : Nat := 62

/-- The own address before settings are loaded (spec/01 R7). -/
def defaultOwnAddress : Nat := 63

/-- The largest field address of a head (spec/02 R22). -/
def headCount : Nat := 47

/-- Cells the L-port forwarded queue holds at most (spec/01 R8). -/
def lQueueMax : Nat := 32

/-- Cells the F-port forwarded queue holds at most (spec/01 R10). -/
def fQueueMax : Nat := 16

/-- The largest credit count (spec/01 R12). -/
def creditMax : Nat := 15

/-- The urgent streak at which a routine candidate is sent (spec/01 R16). -/
def streakMax : Nat := 4

/-- The bad run at which LOOP_NOISE is raised (spec/01 R3). -/
def badRunMax : Nat := 16

/-- Entries of the Actuator Table (spec/04 R60). -/
def actuatorCount : Nat := 12

/-- Items the Command Queue holds at most (spec/04 R67). -/
def queueMax : Nat := 16

/-- Entries the In-Flight Table holds at most (spec/04 R72). -/
def flightMax : Nat := 4

/-- Notices the notice queue holds at most (spec/10 R164). -/
def noticeMax : Nat := 8

/-- Items a report cell holds at most (spec/10 R165). -/
def cellItemMax : Nat := 3

/-- The least duty a heater grant carries (spec/07 R130, spec/08 R142). -/
def dutyMin : Nat := 10

/-- The value packed for an absent figure, the none mark (spec/10 R160). -/
def noneMark : Int := -8388608

/-- How many tellings one settling takes before it leaves the rest for the next (log 2). -/
def settleLimit : Nat := 4096

end Sys2Proof.Config
end

