-- ==== Sys2Proof/Syntax.lean ====
section
/-!
DEFINITION. The commands: one constructor for each row of spec/opcode_table.json.
An arrival carries the bytes received, check included; where a cell of the row can arrive at either port, the port too.
An expiry carries the index of its timer where the part has several.
-/

namespace Sys2Proof

/-- The two ports (spec/01 R1): the F-port faces the field heads, the L-port the line master. -/
inductive Port where
  | field
  | line
  deriving DecidableEq, Repr, Inhabited

/-- The two routine report cells (spec/10 R168, R169), each with a pack-hold timer of its own. -/
inductive RoutineCell where
  | opened
  | runAhead
  deriving DecidableEq, Repr, Inhabited

/-- The commands the part takes, in the table's order. -/
inductive Instr where
  | powerOn
  | badCell (port : Port) (bytes : List Byte)
  | forwardedCell (port : Port) (bytes : List Byte)
  | sample (bytes : List Byte)
  | status (bytes : List Byte)
  | ack (bytes : List Byte)
  | operatorSwitch (bytes : List Byte)
  | operatorPosition (bytes : List Byte)
  | operatorDuty (bytes : List Byte)
  | operatorQuery (bytes : List Byte)
  | operatorRelease (bytes : List Byte)
  | fence (bytes : List Byte)
  | clock (bytes : List Byte)
  | credit (bytes : List Byte)
  | readEntry (port : Port) (bytes : List Byte)
  | badRequestKind (port : Port) (bytes : List Byte)
  | writeEntry (port : Port) (bytes : List Byte)
  | readRecord (port : Port) (bytes : List Byte)
  | ackCondition (port : Port) (bytes : List Byte)
  | clearFault (port : Port) (bytes : List Byte)
  | store (port : Port) (bytes : List Byte)
  | deferredStoreBegin
  | storeCompletion
  | latchWordWriteDeferred
  | latchWordWriteCompletion
  | recall (port : Port) (bytes : List Byte)
  | restart (port : Port) (bytes : List Byte)
  | setLock (port : Port) (bytes : List Byte)
  | clearLock (port : Port) (bytes : List Byte)
  | releaseTrip (port : Port) (bytes : List Byte)
  | transmitCompletion (port : Port)
  | lPortSendBegin
  | fPortSendBegin
  | secondTick
  | minuteBoundary
  | creditWaitExpiry
  | staleTimerExpiry (address : Nat)
  | splitTimerExpiry
  | restTimerExpiry (actuator : Nat)
  | ackTimeoutExpiry (actuator : Nat)
  | valveTravelExpiry (actuator : Nat)
  | holdTimerExpiry (actuator : Nat)
  | clockStaleExpiry
  | proveTimerExpiry (pump : Nat)
  | dryTimerExpiry (pump : Nat)
  | blindStartTimerExpiry
  | heaterProveTimerExpiry (zone : Nat)
  | pulseTimerExpiry
  | minimumTimerExpiry (entry : Nat)
  | maximumTimerExpiry (entry : Nat)
  | packHoldExpiry (cell : RoutineCell)
  | powerLoss
  deriving DecidableEq, Repr, Inhabited

end Sys2Proof
end

