-- ==== Sys2Proof/Machine/Operands.lean ====
section
/-!
DEFINITION. Cells, their check, their slots and items (spec/01 R2, R20, R21).
Every form in which a command carries its operands is read here; nothing below this file sees a raw byte of a header.
-/

namespace Sys2Proof.Machine

/-- One step of the CRC register: generator 0x1021, most significant bit first (R2). -/
def crcBit (c : Check) : Check :=
  if c.msb then (c <<< 1) ^^^ 0x1021#16 else c <<< 1

/-- The CRC register shifted `n` times. -/
def crcShift : Nat → Check → Check
  | 0, c => c
  | n + 1, c => crcShift n (crcBit c)

/-- The CRC register after one byte (R2: no reflection). -/
def crcByte (c : Check) (b : Byte) : Check :=
  crcShift 8 (c ^^^ (b.zeroExtend 16 <<< 8))

/-- CRC-16 over a run of bytes, initial value 0xFFFF, no final inversion (R2). -/
def crc16 (bs : List Byte) : Check :=
  bs.foldl crcByte 0xFFFF#16

/-- A 16-bit value as two bytes, high byte first (R20). -/
def checkBytes (c : Check) : List Byte :=
  [(c >>> 8).setWidth 8, c.setWidth 8]

/-- Byte `i` of a cell, 0 past its end. -/
def byteAt (bs : List Byte) (i : Nat) : Byte := bs.getD i 0#8

/-- The kind code of a cell's header (R20, byte 0). -/
def cellKind (bs : List Byte) : Nat := (byteAt bs 0).toNat

/-- The destination address: bits 7..6 are ignored (R20, R21). -/
def cellDest (bs : List Byte) : Nat := (byteAt bs 1).toNat % 64

/-- The source address: bits 7..6 are ignored (R20, R21). -/
def cellSource (bs : List Byte) : Nat := (byteAt bs 2).toNat % 64

/-- The slot count, bits 1..0 of the info byte (R20). -/
def cellSlotCount (bs : List Byte) : Nat := (byteAt bs 3).toNat % 4

/-- R2: the length is 6 plus 4 times the slot count, and the check over every byte before the last two equals them. -/
def goodCell (bs : List Byte) : Bool :=
  bs.length == 6 + 4 * cellSlotCount bs
    && checkBytes (crc16 (bs.take (bs.length - 2))) == bs.drop (bs.length - 2)

/-- One 4-byte slot (R20): for cells of kind 1 to 7, byte 0 is the item code and bytes 1..3 the fields. -/
structure Slot where
  b0 : Byte
  b1 : Byte
  b2 : Byte
  b3 : Byte
  deriving DecidableEq, Repr, Inhabited

/-- The four bytes of a slot in the order sent. -/
def Slot.bytes (s : Slot) : List Byte := [s.b0, s.b1, s.b2, s.b3]

/-- A run of bytes cut into whole slots. -/
def slotsOf : List Byte → List Slot
  | a :: b :: c :: d :: rest => ⟨a, b, c, d⟩ :: slotsOf rest
  | _ => []

/-- The slots of a cell, in slot order (R20). -/
def cellSlots (bs : List Byte) : List Slot :=
  slotsOf ((bs.drop 4).take (4 * cellSlotCount bs))

/-- The item code of a slot. -/
def Slot.code (s : Slot) : Nat := s.b0.toNat

/-- Field 1 of an item. -/
def Slot.field1 (s : Slot) : Nat := s.b1.toNat

/-- Field 2 of an item. -/
def Slot.field2 (s : Slot) : Nat := s.b2.toNat

/-- Field 3 of an item. -/
def Slot.field3 (s : Slot) : Nat := s.b3.toNat

/-- The 24-bit value of an item, unsigned (R20). -/
def Slot.value (s : Slot) : Nat := s.b1.toNat * 65536 + s.b2.toNat * 256 + s.b3.toNat

/-- The 24-bit value of an item, two's complement (R20). -/
def Slot.signedValue (s : Slot) : Int :=
  if s.value < 8388608 then (s.value : Int) else (s.value : Int) - 16777216

/-- A byte from a number, its low eight bits. -/
def byteOf (n : Nat) : Byte := BitVec.ofNat 8 n

/-- A slot from its four byte values. -/
def slotOf (code f1 f2 f3 : Nat) : Slot := ⟨byteOf code, byteOf f1, byteOf f2, byteOf f3⟩

/-- Header and slots of a cell the part originates, reserved bits sent as 0 (R20, R21). -/
def cellBody (kind dest src : Nat) (urgent : Bool) (slots : List Slot) : List Byte :=
  [byteOf kind, byteOf (dest % 64), byteOf (src % 64),
    byteOf (slots.length % 4 + if urgent then 128 else 0)] ++ slots.flatMap Slot.bytes

/-- R18: the Loop interface closes a cell by computing the check over its header and slots. -/
def closeCell (body : List Byte) : List Byte := body ++ checkBytes (crc16 body)

/-- A whole cell the part originates. -/
def buildCell (kind dest src : Nat) (urgent : Bool) (slots : List Slot) : List Byte :=
  closeCell (cellBody kind dest src urgent slots)

/-- The items of a SAMPLE cell (R20). -/
inductive SampleItem where
  | levelCount (v : Nat)
  | distance (v : Nat)
  | floatState (v : Nat)
  | temperature (v : Int)
  | pulsePeriod (v : Nat)
  | headFault (code : Nat)
  deriving DecidableEq, Repr

/-- A slot of a SAMPLE cell; none for a code not listed for the kind (R21). -/
def sampleItem (s : Slot) : Option SampleItem :=
  match s.code with
  | 0x01 => some (.levelCount s.value)
  | 0x02 => some (.distance s.value)
  | 0x03 => some (.floatState s.value)
  | 0x04 => some (.temperature s.signedValue)
  | 0x05 => some (.pulsePeriod s.value)
  | 0x0F => some (.headFault s.field1)
  | _ => none

/-- The items of a SAMPLE cell in slot order, unlisted codes skipped (R21, R26). -/
def sampleItems (bs : List Byte) : List SampleItem := (cellSlots bs).filterMap sampleItem

/-- The slots of a cell that carry the item code given (R21). -/
def slotsWith (code : Nat) (bs : List Byte) : List Slot :=
  (cellSlots bs).filter (fun s => s.code == code)

/-- The item codes of COMMAND cells (R20). -/
inductive OperatorItem where
  | switch (field : Nat)
  | position (field : Nat)
  | duty (d : Nat)
  | query
  | release
  deriving DecidableEq, Repr

/-- A slot of a COMMAND cell; none for a code not listed for the kind (R21). -/
def operatorItem (s : Slot) : Option OperatorItem :=
  match s.code with
  | 0x30 => some (.switch s.field1)
  | 0x31 => some (.position s.field1)
  | 0x32 => some (.duty s.field1)
  | 0x33 => some .query
  | 0x34 => some .release
  | _ => none

/-- The items of a COMMAND cell in slot order (R78). -/
def operatorItems (bs : List Byte) : List OperatorItem := (cellSlots bs).filterMap operatorItem

/-- The request kind of a MGMT_REQ header slot: bits 3..0 of byte 0 (R20). -/
def Slot.requestKind (s : Slot) : Nat := s.b0.toNat % 16

/-- The field group of a MGMT_REQ header slot: bits 7..4 of byte 0 (R20). -/
def Slot.group (s : Slot) : Nat := s.b0.toNat / 16

/-- Cell kind codes (section 1.2). -/
def kindSample : Nat := 1
def kindStatus : Nat := 2
def kindAck : Nat := 3
def kindCommand : Nat := 4
def kindClock : Nat := 5
def kindCredit : Nat := 6
def kindReport : Nat := 7
def kindMgmtReq : Nat := 8
def kindMgmtRsp : Nat := 9
def kindFence : Nat := 10

end Sys2Proof.Machine
end

