-- ==== Sys2Proof/WellFormed.lean ====
section
/-!
DEFINITION. Which commands are well formed: the bytes of an arrival are those of the row that names it, and an index
names a timer the part has. What is checked here is the command alone; the state decides the rest (the own address, the
tables). A command that is not well formed is taken all the same (log 6): its bytes are an arrival like any other.
-/

namespace Sys2Proof.Instr

open Sys2Proof.Machine

/-- A good cell of the kind given (spec/01 R2). -/
def isKind (kind : Nat) (bytes : List Byte) : Bool := goodCell bytes && cellKind bytes == kind

/-- A good COMMAND cell whose first listed item satisfies the test (spec/04 R78). -/
def isOperator (test : OperatorItem → Bool) (bytes : List Byte) : Bool :=
  isKind kindCommand bytes && ((operatorItems bytes).head?.map test).getD false

/-- A good MGMT_REQ cell with a header slot of the request kind given (spec/11 R173). -/
def isRequest (kind : Nat) (bytes : List Byte) : Bool :=
  isKind kindMgmtReq bytes && ((cellSlots bytes).head?.map (fun s => s.requestKind == kind)).getD false

/-- Well-formedness, row by row. -/
def wellFormed : Instr → Bool
  | .powerOn => true
  | .badCell _ bytes => !goodCell bytes
  | .forwardedCell _ bytes => goodCell bytes
  | .sample bytes => isKind kindSample bytes
  | .status bytes => isKind kindStatus bytes
  | .ack bytes => isKind kindAck bytes
  | .operatorSwitch bytes => isOperator (fun i => match i with | .switch _ => true | _ => false) bytes
  | .operatorPosition bytes => isOperator (fun i => match i with | .position _ => true | _ => false) bytes
  | .operatorDuty bytes => isOperator (fun i => match i with | .duty _ => true | _ => false) bytes
  | .operatorQuery bytes => isOperator (fun i => match i with | .query => true | _ => false) bytes
  | .operatorRelease bytes => isOperator (fun i => match i with | .release => true | _ => false) bytes
  | .fence bytes => isKind kindFence bytes
  | .clock bytes => isKind kindClock bytes
  | .credit bytes => isKind kindCredit bytes
  | .readEntry _ bytes => isRequest 1 bytes
  | .badRequestKind _ bytes =>
      isKind kindMgmtReq bytes
        && ((cellSlots bytes).head?.map (fun s => s.requestKind == 0 || decide (11 < s.requestKind))).getD false
  | .writeEntry _ bytes => isRequest 2 bytes
  | .readRecord _ bytes => isRequest 3 bytes
  | .ackCondition _ bytes => isRequest 4 bytes
  | .clearFault _ bytes => isRequest 5 bytes
  | .store _ bytes => isRequest 6 bytes
  | .deferredStoreBegin => true
  | .storeCompletion => true
  | .latchWordWriteDeferred => true
  | .latchWordWriteCompletion => true
  | .recall _ bytes => isRequest 7 bytes
  | .restart _ bytes => isRequest 8 bytes
  | .setLock _ bytes => isRequest 9 bytes
  | .clearLock _ bytes => isRequest 10 bytes
  | .releaseTrip _ bytes => isRequest 11 bytes
  | .transmitCompletion _ => true
  | .lPortSendBegin => true
  | .fPortSendBegin => true
  | .secondTick => true
  | .minuteBoundary => true
  | .creditWaitExpiry => true
  | .staleTimerExpiry address => decide (1 ≤ address) && decide (address ≤ 47)
  | .splitTimerExpiry => true
  | .restTimerExpiry actuator => decide (actuator < 12)
  | .ackTimeoutExpiry actuator => decide (actuator < 12)
  | .valveTravelExpiry actuator => decide (actuator < 12)
  | .holdTimerExpiry actuator => decide (actuator < 12)
  | .clockStaleExpiry => true
  | .proveTimerExpiry pump => pump == 1 || pump == 2
  | .dryTimerExpiry pump => pump == 1 || pump == 2
  | .blindStartTimerExpiry => true
  | .heaterProveTimerExpiry zone => decide (zone < 4)
  | .pulseTimerExpiry => true
  | .minimumTimerExpiry entry => decide (entry < 24)
  | .maximumTimerExpiry entry => decide (entry < 24)
  | .packHoldExpiry _ => true
  | .powerLoss => true

end Sys2Proof.Instr
end

