-- ==== Sys2Proof/Decode.lean ====
section
/-!
DEFINITION. The commands a word spells. spec/opcode_table.json gives no row any bits ("fields" is empty in all 52), so
no word spells a command; a received cell's bytes are read by Machine/Operands.lean.
-/

namespace Sys2Proof

/-- The command that a word of the table spells: none, for every word. -/
def decodeTableWord (_nbits _w : Nat) : Option Instr := none

end Sys2Proof
end

