-- ==== Sys2Proof/Machine/State.lean ====
section
/-!
DEFINITION. The state of the part as plain data, and its value after power-on of a part whose store was never written.
The state is cut in three: `Loop` (the Loop interface, spec/01), `Env` (time, settings and Intake's head records: what
every evaluation reads) and `Jobs` (what the evaluations of the other blocks write).
-/

namespace Sys2Proof.Machine

/-- A timer: stopped, or running with its expiry on the internal timer, in seconds since power-on. -/
abbrev Timer := Option Nat

/-- A time of week (spec/05 R82). -/
structure TimeOfWeek where
  minute : Nat
  second : Nat
  deriving DecidableEq, Repr, Inhabited

/-! ## Settings (spec/11 R175) -/

/-- Head kinds (spec/02 R23), in the order of their codes 0..12. -/
inductive HeadKind where
  | gaugePressure | gaugeRanging | float | probe | airProbe | flowIn | flowOut
  | pump | valveInlet | valveDrain | heater | service | other
  deriving DecidableEq, Repr, Inhabited

/-- The settings of a Head Table entry (spec/02 R22). -/
structure HeadSettings where
  kind : HeadKind
  role : Nat
  /-- forward policy ABSORB -/
  absorb : Bool
  enabled : Bool
  staleLimit : Nat
  zero : Nat
  span : Nat
  fullScale : Nat
  mount : Nat
  pulse : Nat
  deriving DecidableEq, Repr, Inhabited

/-- Actuator kinds (spec/04 R60), codes 0..3. -/
inductive ActKind where
  | pump | valveInlet | valveDrain | heater
  deriving DecidableEq, Repr, Inhabited

/-- The settings of an Actuator Table entry (spec/04 R60). -/
structure ActSettings where
  address : Nat
  kind : ActKind
  /-- issue mode MANUAL -/
  manual : Bool
  governed : Bool
  rated : Nat
  nominalFlow : Nat
  deriving DecidableEq, Repr, Inhabited

/-- Tariff bands (spec/05 R85). -/
inductive Band where
  | cheap | dear
  deriving DecidableEq, Repr, Inhabited

/-- An entry of the Tariff Calendar (spec/05 R85). -/
structure TariffEntry where
  used : Bool
  band : Band
  start : Nat
  stop : Nat
  cap : Nat
  target : Nat
  deriving DecidableEq, Repr, Inhabited

/-- A point of the Strapping Table (spec/03 R52). -/
structure Point where
  level : Nat
  volume : Nat
  deriving DecidableEq, Repr, Inhabited

/-- The GUARD settings (spec/06 R103). -/
structure GuardSettings where
  high : Nat
  hihi : Nat
  trip : Nat
  drainClose : Nat
  hyst : Nat
  iceSuspect : Int
  housingA : Option Nat
  housingB : Option Nat
  deriving DecidableEq, Repr, Inhabited

/-- Heater curve modes (spec/07 R119). -/
inductive CurveMode where
  | stage | linear
  deriving DecidableEq, Repr, Inhabited

/-- The settings of a zone (spec/07 R119). -/
structure ZoneSettings where
  heater : Option Nat
  mode : CurveMode
  compensated : Bool
  h : Nat
  b1 : Int
  b2 : Int
  b3 : Int
  b4 : Int
  freezeAt : Int
  d0 : Nat
  d1 : Nat
  d2 : Nat
  d3 : Nat
  d4 : Nat
  deriving DecidableEq, Repr, Inhabited

/-- Air factors (spec/07 R120), codes 0..3. -/
inductive AirFactor where
  | one | half | quarter | none
  deriving DecidableEq, Repr, Inhabited

/-- The settings the zones share (spec/07 R120). -/
structure SharedSettings where
  pivot : Int
  cUp : AirFactor
  cDn : AirFactor
  stagnantAfter : Nat
  stagnationOffset : Nat
  stirFlow : Nat
  dutyStep : Nat
  heatProve : Nat
  deriving DecidableEq, Repr, Inhabited

/-- The settings of a Report Policy entry (spec/10 R159). -/
structure PolicySettings where
  quantity : Nat
  deadband : Nat
  minInterval : Nat
  maxInterval : Nat
  deriving DecidableEq, Repr, Inhabited

/-- Alert modes (spec/09 R156). -/
inductive AlertMode where
  | level | pulse
  deriving DecidableEq, Repr, Inhabited

/-- The alert settings (spec/09 R156): one enable for each URGENT kind, by code 0..8. -/
structure AlertSettings where
  enables : List Bool
  mode : AlertMode
  pulseStep : Nat
  deriving DecidableEq, Repr, Inhabited

/-- The GENERAL settings (spec/11 R175). -/
structure General where
  ownAddress : Nat
  packHold : Nat
  ackTimeout : Nat
  clockStaleHours : Nat
  creditWait : Nat
  valveTravel : Nat
  agreeTol : Nat
  disagreeHold : Nat
  tankHeight : Nat
  operatorHoldLimit : Nat
  minRest : Nat
  proveTime : Nat
  minFlow : Nat
  fillMargin : Nat
  restartDeficit : Nat
  reserveMm : Nat
  reserveHyst : Nat
  deriving DecidableEq, Repr, Inhabited

/-- The live tables and the lock: what a STORE copies into the stored image (spec/11 R177). -/
structure Settings where
  general : General
  heads : List HeadSettings
  actuators : List ActSettings
  tariff : List TariffEntry
  points : List Point
  pointsInUse : Nat
  guard : GuardSettings
  zones : List ZoneSettings
  shared : SharedSettings
  siteLimit : Nat
  defaultCap : Nat
  policy : List PolicySettings
  alerts : AlertSettings
  lock : Bool
  deriving DecidableEq, Repr, Inhabited

/-- The factory default of a head's entry (R22). -/
def HeadSettings.factory : HeadSettings :=
  { kind := .other, role := 0, absorb := false, enabled := false, staleLimit := 30, zero := 0, span := 65535,
    fullScale := 30000, mount := 30000, pulse := 100 }

/-- The factory default of an actuator's entry (R60). -/
def ActSettings.factory : ActSettings :=
  { address := 0, kind := .pump, manual := false, governed := false, rated := 1, nominalFlow := 0 }

/-- The factory default of a calendar entry (R85). -/
def TariffEntry.factory : TariffEntry :=
  { used := false, band := .dear, start := 0, stop := 0, cap := 0, target := 0 }

/-- The factory default of a zone (R119). -/
def ZoneSettings.factory : ZoneSettings :=
  { heater := none, mode := .stage, compensated := false, h := 10, b1 := 100, b2 := 50, b3 := 0, b4 := -50,
    freezeAt := 10, d0 := 0, d1 := 25, d2 := 50, d3 := 75, d4 := 100 }

/-- The factory default of a policy entry (R159). -/
def PolicySettings.factory : PolicySettings :=
  { quantity := 0, deadband := 0, minInterval := 0, maxInterval := 0 }

/-- The factory defaults of every table, the lock clear (R179 and each chapter). -/
def Settings.factory : Settings :=
  { general :=
      { ownAddress := 63, packHold := 2, ackTimeout := 5, clockStaleHours := 6, creditWait := 30, valveTravel := 90,
        agreeTol := 150, disagreeHold := 120, tankHeight := 30000, operatorHoldLimit := 3600, minRest := 300,
        proveTime := 60, minFlow := 200, fillMargin := 20, restartDeficit := 20000, reserveMm := 2000,
        reserveHyst := 300 }
    heads := List.replicate 47 HeadSettings.factory
    actuators := List.replicate 12 ActSettings.factory
    tariff := List.replicate 16 TariffEntry.factory
    points := ⟨0, 0⟩ :: ⟨30000, 4000000⟩ :: List.replicate 10 ⟨0, 0⟩
    pointsInUse := 2
    guard :=
      { high := 28500, hihi := 29000, trip := 29500, drainClose := 28000, hyst := 100, iceSuspect := -20,
        housingA := none, housingB := none }
    zones := List.replicate 4 ZoneSettings.factory
    shared :=
      { pivot := 0, cUp := .none, cDn := .half, stagnantAfter := 240, stagnationOffset := 20, stirFlow := 500,
        dutyStep := 5, heatProve := 120 }
    siteLimit := 1000
    defaultCap := 1000
    policy := List.replicate 24 PolicySettings.factory
    alerts := { enables := List.replicate 9 true, mode := .level, pulseStep := 0 }
    lock := false }

/-! ## The Loop interface (spec/01) -/

/-- The routine turn (R17). -/
inductive Turn where
  | forward | report
  deriving DecidableEq, Repr, Inhabited

/-- The state of the Loop interface (spec/01 section 1.8); the urgent cell buffer stands in `Tele`. -/
structure Loop where
  lQueue : List (List Byte)
  fQueue : List (List Byte)
  /-- the L-port transmitter: idle, or the cell being sent -/
  lTx : Option (List Byte)
  /-- the F-port transmitter -/
  fTx : Option (List Byte)
  credits : Nat
  creditWait : Timer
  streak : Nat
  turn : Turn
  badRun : Nat
  deriving DecidableEq, Repr, Inhabited

/-- The Loop interface after power-on (R8, R10, R12, R14, R16, R17, R3, R1). -/
def Loop.powerOn : Loop :=
  { lQueue := [], fQueue := [], lTx := none, fTx := none, credits := 0, creditWait := none, streak := 0,
    turn := .forward, badRun := 0 }

/-! ## Time, settings and head records -/

/-- Clock states (spec/05 R83). -/
inductive ClockState where
  | unset | synced | drifting
  deriving DecidableEq, Repr, Inhabited

/-- The current window as the Tariff State copies it (spec/05 R86). -/
structure Window where
  index : Nat
  start : Nat
  stop : Nat
  deriving DecidableEq, Repr, Inhabited

/-- The Tariff State but for the clock state (spec/05 R86). -/
structure TariffState where
  band : Band
  window : Option Window
  cap : Nat
  target : Option Nat
  deriving DecidableEq, Repr, Inhabited

/-- The Tariff clock (spec/05 R82, R83, R86). -/
structure Clock where
  tow : TimeOfWeek
  state : ClockState
  stale : Timer
  tariff : TariffState
  deriving DecidableEq, Repr, Inhabited

/-- Head states (spec/02 R25). -/
inductive HeadState where
  | unseen | live | stale | faulty
  deriving DecidableEq, Repr, Inhabited

/-- The runtime record of a head but for the frost-suspect flag, which stands in `Jobs.suspects` (spec/02 R25). -/
structure HeadRuntime where
  state : HeadState
  lastValue : Option Int
  clamped : Bool
  faultCode : Option Nat
  lastArrival : Option TimeOfWeek
  samples : Count
  stale : Timer
  deriving DecidableEq, Repr, Inhabited

/-- The runtime record of a head that is not known, after power-on (R25). -/
def HeadRuntime.powerOn : HeadRuntime :=
  { state := .unseen, lastValue := none, clamped := false, faultCode := none, lastArrival := none, samples := 0#32,
    stale := none }

/-- What every evaluation reads: the internal timer, the Tariff clock, the live settings and the head records. -/
structure Env where
  now : Nat
  clock : Clock
  set : Settings
  heads : List HeadRuntime
  deriving DecidableEq, Repr, Inhabited

/-! ## The Level unit (spec/03) -/

/-- Fusion states (R39). -/
inductive Fusion where
  | agree | split | singleA | singleB | blind
  deriving DecidableEq, Repr, Inhabited

/-- A present gauge level (R39): the level and its clamped mark, and, for R51, the level before the TANK_HEIGHT_MM clamp
and the mark the conversion set apart from that clamp. -/
structure GaugeLevel where
  raw : Nat
  offScale : Bool
  level : Nat
  mark : Bool
  deriving DecidableEq, Repr, Inhabited

/-- The Level Record (R39). -/
structure LevelRecord where
  gaugeA : Option GaugeLevel
  gaugeB : Option GaugeLevel
  fusion : Fusion
  fill : Nat
  guard : Nat
  aged : Bool
  volume : Nat
  overRange : Bool
  split : Timer
  lastChange : Option TimeOfWeek
  deriving DecidableEq, Repr, Inhabited

/-! ## The Actuator unit (spec/04) -/

/-- What a command asks of an actuator (R66). -/
inductive Action where
  | switch (on : Bool)
  | position (opened : Bool)
  | duty (d : Nat)
  | query
  deriving DecidableEq, Repr, Inhabited

/-- The values of a commanded state and of a settled command (R61). -/
inductive Commanded where
  | unknown | off | on | closed | opened
  | duty (d : Nat)
  deriving DecidableEq, Repr, Inhabited

/-- State codes 0..7 of STATE and ANSWER items (spec/01 R20). -/
inductive StateCode where
  | unknown | off | on | closed | opened | moving | jammed | duty
  deriving DecidableEq, Repr, Inhabited

/-- A reported state: its code, its duty (0 unless the code is DUTY) and the measured units (R61, R63). -/
structure Reported where
  code : StateCode
  duty : Nat
  units : Nat
  deriving DecidableEq, Repr, Inhabited

/-- Responsiveness (R61). -/
inductive Responsiveness where
  | unknown | responsive | unresponsive
  deriving DecidableEq, Repr, Inhabited

/-- Actuator faults (R61). -/
inductive ActFault where
  | none | noFlow | dryRun | jammed | noHeat
  deriving DecidableEq, Repr, Inhabited

/-- Origins of commands (R66), codes 1..6. `frostLeft` is origin FROST too: it marks the DUTY 0 asked of an entry that a write has
left, whose result acts on no zone record (R132). -/
inductive Origin where
  | fill | guard | frost | frostLeft | allotment | operator | start
  deriving DecidableEq, Repr, Inhabited

/-- Refusal reasons (spec/01 R20), codes 1..7. -/
inductive Reason where
  | manual | inhibitOverflow | tripLatched | resting | badAction | noPower | queueFull
  deriving DecidableEq, Repr, Inhabited

/-- Results of commands (R66). -/
inductive CmdResult where
  | done | notIssued
  | refused (r : Reason)
  | parked | cancelled | timedOut | failed
  deriving DecidableEq, Repr, Inhabited

/-- An operator hold (R79): its start time and its hold timer. -/
structure Hold where
  start : TimeOfWeek
  timer : Nat
  deriving DecidableEq, Repr, Inhabited

/-- The runtime record of an actuator (R61). The commanded state is the one R62 derives from the Command Queue and the
settled command (`Jobs.commanded`), so it has no second home here. -/
structure ActRuntime where
  settled : Commanded
  reported : Reported
  resp : Responsiveness
  fault : ActFault
  discord : Bool
  hold : Option Hold
  parked : Option (Action × Origin)
  rest : Timer
  runMinutes : Count
  runSeconds : Nat
  deriving DecidableEq, Repr, Inhabited

/-- The runtime record after power-on (R61). -/
def ActRuntime.powerOn : ActRuntime :=
  { settled := .unknown, reported := ⟨.unknown, 0, 0⟩, resp := .unknown, fault := .none, discord := false,
    hold := none, parked := none, rest := none, runMinutes := 0#32, runSeconds := 0 }

/-- An item of the Command Queue (R67). The items of guard groups are the commands of origin GUARD and the fences marked
as guard fences. -/
inductive QueueItem where
  | cmd (idx : Nat) (action : Action) (origin : Origin)
  | fence (guard : Bool)
  deriving DecidableEq, Repr, Inhabited

/-- An entry of the In-Flight Table (R72). -/
structure Flight where
  idx : Nat
  action : Action
  origin : Origin
  /-- phase TRAVELLING -/
  travelling : Bool
  timer : Nat
  deriving DecidableEq, Repr, Inhabited

/-! ## The Fill controller (spec/05) -/

/-- Fill modes (R88), codes 0..7. -/
inductive FillMode where
  | idle | waiting | fillingOpp | fillingCommitted | fillingReserve | topped | held | blindHold
  deriving DecidableEq, Repr, Inhabited

/-- The Fill Plan (R88). The last five fields say which commands R99 asks again, which results belong to the start group
of the run now STARTING (`group`) and which to one of an earlier run (`stale`), and the bound of log 7. -/
structure FillPlan where
  mode : FillMode
  window : Option (Nat × Band)
  targetLevel : Option Nat
  targetVolume : Option Nat
  deficit : Nat
  learned : Nat
  flowUsed : Nat
  needed : Nat
  remaining : Option Nat
  mustStart : Option Nat
  lead : Option Nat
  shortfall : Bool
  topped : Bool
  committed : Bool
  reserve : Bool
  inletFlow : Option Nat
  outletFlow : Option Nat
  owedOff : List Nat
  owedClose : Bool
  group : List (Nat × Action)
  stale : List (Nat × Action)
  startBar : List Nat
  deriving DecidableEq, Repr, Inhabited

/-- The Fill Plan after power-on (R88). -/
def FillPlan.powerOn : FillPlan :=
  { mode := .idle, window := none, targetLevel := none, targetVolume := none, deficit := 0, learned := 0, flowUsed := 0,
    needed := 0, remaining := none, mustStart := none, lead := none, shortfall := false, topped := false,
    committed := false, reserve := false, inletFlow := none, outletFlow := none, owedOff := [], owedClose := false,
    group := [], stale := [], startBar := [] }

/-- Phases of a run (R97). -/
inductive RunPhase where
  | stopped | starting | proving | proved
  deriving DecidableEq, Repr, Inhabited

/-- The run record of a pump (R97). -/
structure Run where
  phase : RunPhase
  metered : Bool
  prove : Timer
  dry : Timer
  deriving DecidableEq, Repr, Inhabited

/-- A run record after a reset (R97). -/
def Run.powerOn : Run := { phase := .stopped, metered := false, prove := none, dry := none }

/-! ## The Overflow guard (spec/06) -/

/-- Guard bands (R104), codes 0..3. -/
inductive GuardBand where
  | normal | high | highHigh | trip
  deriving DecidableEq, Repr, Inhabited

/-- Float states (R104). -/
inductive FloatState where
  | dry | wet | unknown | none
  deriving DecidableEq, Repr, Inhabited

/-- The guard record (R104). -/
structure GuardRecord where
  band : GuardBand
  latch : Bool
  float : FloatState
  /-- pump demand OFF -/
  pumpDemand : Bool
  /-- inlet demand CLOSED -/
  inletDemand : Bool
  /-- drain demand: absent, or whether it is OPEN -/
  drainDemand : Option Bool
  reissue : Bool
  blindStart : Timer
  deriving DecidableEq, Repr, Inhabited

/-! ## The Frost unit (spec/07) -/

/-- Zone states (R121). -/
inductive ZoneState where
  | off | heating | freezeRisk | failed
  deriving DecidableEq, Repr, Inhabited

/-- Claim classes (spec/08 R138), codes 0..4. -/
inductive ClaimClass where
  | none | critical | committed | normal | opportunistic
  deriving DecidableEq, Repr, Inhabited

/-- Proving phases of a heater (R121). -/
inductive ProvePhase where
  | idle | proving | proved
  deriving DecidableEq, Repr, Inhabited

/-- A zone record (R121). -/
structure Zone where
  probe : Option Int
  tEff : Option Int
  atRisk : Bool
  state : ZoneState
  segment : Option Nat
  anchor : Option Int
  curve : Nat
  claimClass : ClaimClass
  claimUnits : Nat
  grant : Nat
  grantedDuty : Nat
  commandedDuty : Option Nat
  retry : Bool
  proving : ProvePhase
  expected : Nat
  timer : Timer
  deriving DecidableEq, Repr, Inhabited

/-- A zone record after a reset (R121). -/
def Zone.powerOn : Zone :=
  { probe := none, tEff := none, atRisk := false, state := .off, segment := none, anchor := none, curve := 0,
    claimClass := .none, claimUnits := 0, grant := 0, grantedDuty := 0, commandedDuty := none, retry := false,
    proving := .idle, expected := 0, timer := none }

/-- The Frost unit (R121). -/
structure Frost where
  zones : List Zone
  air : Option Int
  inlet : Option Nat
  outlet : Option Nat
  age : Nat
  deriving DecidableEq, Repr, Inhabited

/-! ## The Power allotment (spec/08) -/

/-- A Claim Record (R138). -/
structure Claim where
  cls : ClaimClass
  requested : Nat
  granted : Nat
  incumbent : Bool
  fillClass : ClaimClass
  fillUnits : Nat
  operator : Bool
  postedClass : ClaimClass
  postedUnits : Nat
  deriving DecidableEq, Repr, Inhabited

/-- A Claim Record after a reset (R147). -/
def Claim.powerOn : Claim :=
  { cls := .none, requested := 0, granted := 0, incumbent := false, fillClass := .none, fillUnits := 0,
    operator := false, postedClass := .none, postedUnits := 0 }

/-- The Power allotment: the cap and the records of pump 1, pump 2 and zones 0..3, in this order (R137, R138). -/
structure Power where
  cap : Nat
  claims : List Claim
  deriving DecidableEq, Repr, Inhabited

/-! ## The Condition unit and the Report unit (spec/09, spec/10) -/

/-- Condition kinds, in the order of their codes 0..21 (spec/01 R20); 0..8 are URGENT, 9..21 ROUTINE. -/
inductive CondKind where
  | overflowNear | overflowInhibit | overflowTrip | levelBlind | freezeRisk | reserveLow | pumpFail | lineStalled
  | settingsLost | gaugeSplit | gaugeLost | headStale | clockUnset | clockStale | fillShortfall | powerShort
  | queueFull | loopNoise | actuatorDiscord | actuatorLost | heaterFail | pumpFault
  deriving DecidableEq, Repr, Inhabited

/-- An entry of the Condition Table but for its alert enable, a setting (spec/09 R148). -/
structure Cond where
  active : Bool
  acked : Bool
  occurrences : Nat
  pending : Bool
  queued : Bool
  first : Option TimeOfWeek
  last : Option TimeOfWeek
  deriving DecidableEq, Repr, Inhabited

/-- A Condition Table entry after power-on, before any raise (R155). -/
def Cond.powerOn : Cond :=
  { active := false, acked := false, occurrences := 0, pending := false, queued := false, first := none, last := none }

/-- Notices (spec/10 R164). -/
inductive Notice where
  | refusal (idx code reason : Nat)
  | cancelled (idx code origin : Nat)
  | holdEnded (idx cause : Nat)
  | condition (kind : CondKind)
  deriving DecidableEq, Repr, Inhabited

/-- Items of report cells (spec/10 R165). -/
inductive ReportItem where
  | policy (entry : Nat) (value : Int)
  | condition (kind : CondKind) (flags occurrences : Nat)
  | refusal (idx code reason : Nat)
  | cancelled (idx code origin : Nat)
  | holdEnded (idx cause : Nat)
  deriving DecidableEq, Repr, Inhabited

/-- A report cell (spec/10 section 10.4): EMPTY without items, READY when marked, ACCUMULATING otherwise. -/
structure ReportCell where
  items : List ReportItem
  ready : Bool
  hold : Timer
  deriving DecidableEq, Repr, Inhabited

/-- An EMPTY report cell. -/
def ReportCell.empty : ReportCell := { items := [], ready := false, hold := none }

/-- The runtime record of a policy entry (spec/10 R159); a last reported value is a number or the none mark. -/
structure PolicyRuntime where
  last : Option Int
  lastTime : Option TimeOfWeek
  due : Bool
  minTimer : Timer
  maxTimer : Timer
  deriving DecidableEq, Repr, Inhabited

/-- A policy runtime record after a reset (R171). -/
def PolicyRuntime.powerOn : PolicyRuntime :=
  { last := none, lastTime := none, due := false, minTimer := none, maxTimer := none }

/-- The Condition unit and the Report unit together: a raise posts a notice and a packed notice changes the entry it
names, so the two change in one operation (R151, R153, R165). `dropped` is counter 8 (spec/11 R180). -/
structure Tele where
  conds : List Cond
  urgentDue : List CondKind
  /-- the alert line is asserted -/
  alert : Bool
  /-- the pulse timer: its expiry on the internal timer, in milliseconds -/
  pulse : Option Nat
  policies : List PolicyRuntime
  due : List Nat
  notices : List Notice
  urgent : ReportCell
  opened : ReportCell
  ahead : Option ReportCell
  dropped : Count
  deriving DecidableEq, Repr, Inhabited

/-- The Condition and Report units as power-on finds them before any raise (R155, R171). -/
def Tele.powerOn : Tele :=
  { conds := List.replicate 22 Cond.powerOn, urgentDue := [], alert := false, pulse := none,
    policies := List.replicate 24 PolicyRuntime.powerOn, due := [], notices := [], urgent := .empty, opened := .empty,
    ahead := none, dropped := 0#32 }

/-! ## The settings store and the counters (spec/11) -/

/-- What a STORE in flight answers at its completion: the port, the requester's address and the header bytes echoed. -/
structure Asker where
  port : Port
  address : Nat
  b0 : Nat
  b1 : Nat
  tag : Nat
  deriving DecidableEq, Repr, Inhabited

/-- The settings store (R177): the two stored items, and what it is doing. -/
structure Store where
  image : Option Settings
  complete : Bool
  word : Bool
  /-- a store in flight, with the live settings as they stood when it began -/
  storing : Option Settings
  /-- a STORE that waits for a latch word write -/
  waiting : Bool
  asker : Option Asker
  /-- a latch word write being made, with the value written -/
  writing : Option Bool
  /-- a latch word write requested and not yet begun -/
  writeAsked : Bool
  /-- the write being made is the one that a waiting STORE lets go first -/
  further : Bool
  deriving DecidableEq, Repr, Inhabited

/-- A store that has never been written (R179). -/
def Store.never : Store :=
  { image := none, complete := false, word := false, storing := none, waiting := false, asker := none,
    writing := none, writeAsked := false, further := false }

/-- The counters of R180 but for counter 8, which stands in `Tele.dropped`. -/
structure Counters where
  received1F : Count
  received2L : Count
  bad3F : Count
  bad4L : Count
  forwarded5Up : Count
  forwarded6Down : Count
  displaced7 : Count
  issued9 : Count
  ackTimeouts10 : Count
  refusals11 : Count
  discarded12 : Count
  clockJumps13 : Count
  stores14 : Count
  deriving DecidableEq, Repr, Inhabited

/-- Every counter 0 (R179). -/
def Counters.zero : Counters :=
  { received1F := 0#32, received2L := 0#32, bad3F := 0#32, bad4L := 0#32, forwarded5Up := 0#32,
    forwarded6Down := 0#32, displaced7 := 0#32, issued9 := 0#32, ackTimeouts10 := 0#32, refusals11 := 0#32,
    discarded12 := 0#32, clockJumps13 := 0#32, stores14 := 0#32 }

/-! ## Tellings -/

/-- What one block tells another: a new event, taken after the one that made it (R90, R122, R141; log 2). -/
inductive Event where
  /-- a gauge A count with Intake's mark and the scaling Z, S, F (R34, R42) -/
  | gaugeA (count : Nat) (mark : Bool) (z s f : Nat)
  /-- a gauge B distance with Intake's mark and the mount height (R34, R44) -/
  | gaugeB (distance : Nat) (mark : Bool) (mount : Nat)
  /-- gauge A is unusable (R45) -/
  | gaugeAGone
  /-- gauge B is unusable (R45) -/
  | gaugeBGone
  /-- the other events of R40 -/
  | recompute
  /-- an evaluation of the Fill controller (R90) -/
  | fillEval
  | fillInlet (flow : Option Nat)
  | fillOutlet (flow : Option Nat)
  | fillResult (idx : Nat) (action : Action) (result : CmdResult)
  /-- a pump's commanded state changed (R98) -/
  | fillCommanded
  | fillDiscord (idx : Nat)
  /-- a CLEAR_FAULT or an ACTUATORS write: the PUMP_FAULT test of R101, then an evaluation -/
  | fillFaults
  /-- a guard evaluation (R106) -/
  | guardEval
  /-- a level change; whether the fusion state before it was BLIND (R41, R115) -/
  | guardLevel (wasBlind : Bool)
  /-- a float delivery: wet or dry, or unusable (R105) -/
  | guardFloat (wet : Option Bool)
  | guardResult (idx : Nat) (result : CmdResult)
  /-- an evaluation of a zone (R122) -/
  | frostZone (zone : Nat)
  | frostProbe (zone : Nat) (temperature : Option Int)
  | frostAir (temperature : Option Int)
  | frostInlet (flow : Option Nat)
  | frostOutlet (flow : Option Nat)
  | frostMinute
  /-- the evaluation of a zone at a minute boundary, which first clears its retry wait (R131) -/
  | frostMinuteZone (zone : Nat)
  | frostResult (idx : Nat) (action : Action) (result : CmdResult)
  /-- a STATUS from a heater, with its measured units (R133) -/
  | frostStatus (idx units : Nat)
  | frostDiscord (idx : Nat)
  | frostHold (idx : Nat) (start : Bool)
  | frostGrant (zone grant : Nat)
  /-- a CLEAR_FAULT or an ACTUATORS write: the HEATER_FAIL test of R134 -/
  | frostFaults
  /-- the frost-suspect test after a write told under R103 -/
  | frostSuspect
  /-- an allotment pass (R141) -/
  | pass
  /-- derive the cap afresh (R137) -/
  | cap
  | powerResult (idx : Nat) (result : CmdResult)
  | operatorResult (idx : Nat) (action : Action) (result : CmdResult)
  /-- the minute boundary at the Condition unit (R153) -/
  | condMinute
  deriving DecidableEq, Repr, Inhabited

/-- What the evaluations of the blocks write. -/
structure Jobs where
  level : LevelRecord
  /-- the frost-suspect flag of each Head Table entry (spec/02 R36) -/
  suspects : List Bool
  acts : List ActRuntime
  queue : List QueueItem
  flight : List Flight
  fill : FillPlan
  runs : List Run
  guard : GuardRecord
  frost : Frost
  power : Power
  tele : Tele
  store : Store
  counters : Counters
  /-- tellings not yet taken, the next one first: the model's own field (log 2) -/
  work : List Event
  /-- choices for the orders the spec leaves open: the model's own field (log 1) -/
  choices : List Nat
  deriving DecidableEq, Repr, Inhabited

/-- The records as power-on sets them before any raise and evaluation, for a store as given and the factory tables. -/
def Jobs.powerOn (store : Store) : Jobs :=
  { level :=
      { gaugeA := none, gaugeB := none, fusion := .blind, fill := 0, guard := 0, aged := true, volume := 0,
        overRange := false, split := none, lastChange := none }
    suspects := List.replicate 47 false
    acts := List.replicate 12 ActRuntime.powerOn
    queue := []
    flight := []
    fill := FillPlan.powerOn
    runs := List.replicate 2 Run.powerOn
    guard :=
      { band := .normal, latch := false, float := .none, pumpDemand := false, inletDemand := false,
        drainDemand := none, reissue := false, blindStart := none }
    frost := { zones := List.replicate 4 Zone.powerOn, air := none, inlet := none, outlet := none, age := 0 }
    power := { cap := 0, claims := List.replicate 6 Claim.powerOn }
    tele := Tele.powerOn
    store := store
    counters := Counters.zero
    work := []
    choices := [] }

/-- Time, factory settings and head records as power-on finds them. -/
def Env.powerOn : Env :=
  { now := 0
    clock :=
      { tow := ⟨0, 0⟩, state := .unset, stale := none,
        tariff := { band := .dear, window := none, cap := 1000, target := none } }
    set := Settings.factory
    heads := List.replicate 47 HeadRuntime.powerOn }

/-- Why a command stops the machine: never. The spec gives every command of the table an effect (INVENTORY, Faults), so
nobody raises a fault and the type is empty. -/
inductive Fault where
  deriving DecidableEq, Repr

/-- Why a command has no meaning. -/
inductive Refusal where
  /-- raised by `exec` for a command that has no meaning yet (safe); no arm raises it now -/
  | notModelled (mnemonic : String)
  deriving DecidableEq, Repr

/-- The part. -/
structure State where
  /-- the supply is present (spec/11 R177, R179) -/
  powered : Bool
  /-- the commands that wait, first in, first out: the model's own field -/
  pending : List Instr
  loop : Loop
  env : Env
  jobs : Jobs
  deriving DecidableEq, Repr, Inhabited

/-- The part without power: the live state has ceased, and what the settings store holds survives (R177). -/
def State.unpowered (store : Store) : State :=
  { powered := false, pending := [], loop := Loop.powerOn, env := Env.powerOn, jobs := Jobs.powerOn store }

/-- The part right after power-on with a settings store that was never written: the factory defaults are in force,
CLOCK_UNSET and SETTINGS_LOST have been raised once each (R155, R179) and packed at once into the open and the urgent
cell (R166), the alert line is asserted (R157), the blind start timer (R115), the pack hold (R168) and CREDIT_WAIT (R14)
run, and the cap has been derived (R147). -/
def State.reset : State :=
  { powered := true
    pending := []
    loop := { Loop.powerOn with creditWait := some 30 }
    env := Env.powerOn
    jobs :=
      { Jobs.powerOn Store.never with
        guard := { (Jobs.powerOn Store.never).guard with blindStart := some 30 }
        power := { cap := 1000, claims := List.replicate 6 Claim.powerOn }
        tele :=
          { Tele.powerOn with
            conds :=
              List.replicate 8 Cond.powerOn
                ++ [{ Cond.powerOn with active := true, occurrences := 1, first := some ⟨0, 0⟩, last := some ⟨0, 0⟩ }]
                ++ List.replicate 3 Cond.powerOn
                ++ [{ Cond.powerOn with active := true, occurrences := 1, first := some ⟨0, 0⟩, last := some ⟨0, 0⟩ }]
                ++ List.replicate 9 Cond.powerOn
            alert := true
            urgent := { items := [.condition .settingsLost 1 1], ready := true, hold := none }
            opened := { items := [.condition .clockUnset 1 1], ready := false, hold := some 2 } } } }

end Sys2Proof.Machine
end

