-- ==== Sys2Proof/Machine/Codes.lean ====
section
/-!
DEFINITION. The codes of the enumerations, as items, reports and management responses carry them
(spec/01 R20, and the enumeration of each field in its own chapter).
-/

namespace Sys2Proof.Machine

/-- The head kind of a code (spec/02 R23). -/
def headKindOf : Nat → Option HeadKind
  | 0 => some .gaugePressure
  | 1 => some .gaugeRanging
  | 2 => some .float
  | 3 => some .probe
  | 4 => some .airProbe
  | 5 => some .flowIn
  | 6 => some .flowOut
  | 7 => some .pump
  | 8 => some .valveInlet
  | 9 => some .valveDrain
  | 10 => some .heater
  | 11 => some .service
  | 12 => some .other
  | _ => none

/-- The code of a head kind (spec/02 R23). -/
def HeadKind.code : HeadKind → Nat
  | .gaugePressure => 0
  | .gaugeRanging => 1
  | .float => 2
  | .probe => 3
  | .airProbe => 4
  | .flowIn => 5
  | .flowOut => 6
  | .pump => 7
  | .valveInlet => 8
  | .valveDrain => 9
  | .heater => 10
  | .service => 11
  | .other => 12

/-- Kinds 0 to 6 are the measuring kinds (spec/02 R23). -/
def HeadKind.measuring (k : HeadKind) : Bool := decide (k.code ≤ 6)

/-- The code of a head state (spec/02 R25). -/
def HeadState.code : HeadState → Nat
  | .unseen => 0
  | .live => 1
  | .stale => 2
  | .faulty => 3

/-- The actuator kind of a code (spec/04 R60). -/
def actKindOf : Nat → Option ActKind
  | 0 => some .pump
  | 1 => some .valveInlet
  | 2 => some .valveDrain
  | 3 => some .heater
  | _ => none

/-- The code of an actuator kind (spec/04 R60). -/
def ActKind.code : ActKind → Nat
  | .pump => 0
  | .valveInlet => 1
  | .valveDrain => 2
  | .heater => 3

/-- The band of a code (spec/05 R85). -/
def bandOf : Nat → Option Band
  | 0 => some .cheap
  | 1 => some .dear
  | _ => none

/-- The code of a band (spec/05 R85). -/
def Band.code : Band → Nat
  | .cheap => 0
  | .dear => 1

/-- The curve mode of a code (spec/07 R119). -/
def curveModeOf : Nat → Option CurveMode
  | 0 => some .stage
  | 1 => some .linear
  | _ => none

/-- The code of a curve mode. -/
def CurveMode.code : CurveMode → Nat
  | .stage => 0
  | .linear => 1

/-- The air factor of a code (spec/07 R120). -/
def airFactorOf : Nat → Option AirFactor
  | 0 => some .one
  | 1 => some .half
  | 2 => some .quarter
  | 3 => some .none
  | _ => none

/-- The code of an air factor. -/
def AirFactor.code : AirFactor → Nat
  | .one => 0
  | .half => 1
  | .quarter => 2
  | .none => 3

/-- The alert mode of a code (spec/09 R156). -/
def alertModeOf : Nat → Option AlertMode
  | 0 => some .level
  | 1 => some .pulse
  | _ => none

/-- The code of an alert mode. -/
def AlertMode.code : AlertMode → Nat
  | .level => 0
  | .pulse => 1

/-- The code of a clock state (spec/05 R83). -/
def ClockState.code : ClockState → Nat
  | .unset => 0
  | .synced => 1
  | .drifting => 2

/-- The code of a fusion state (spec/03 R39). -/
def Fusion.code : Fusion → Nat
  | .agree => 0
  | .split => 1
  | .singleA => 2
  | .singleB => 3
  | .blind => 4

/-- The action code of a command: the item code (spec/01 R20). -/
def Action.code : Action → Nat
  | .switch _ => 0x30
  | .position _ => 0x31
  | .duty _ => 0x32
  | .query => 0x33

/-- The slot of a command the part issues (spec/01 R20, R21). -/
def Action.slot : Action → Slot
  | .switch on => slotOf 0x30 on.toNat 0 0
  | .position opened => slotOf 0x31 opened.toNat 0 0
  | .duty d => slotOf 0x32 d 0 0
  | .query => slotOf 0x33 0 0 0

/-- The state a command asks for; a QUERY asks for none (spec/04 R62). -/
def Action.commanded : Action → Option Commanded
  | .switch true => some .on
  | .switch false => some .off
  | .position true => some .opened
  | .position false => some .closed
  | .duty d => some (.duty d)
  | .query => none

/-- The state code of a commanded state (spec/10 R160, spec/11 R175). -/
def Commanded.code : Commanded → Nat
  | .unknown => 0
  | .off => 1
  | .on => 2
  | .closed => 3
  | .opened => 4
  | .duty _ => 7

/-- The duty of a commanded state, 0 when it holds none (spec/11 R175). -/
def Commanded.dutyPart : Commanded → Nat
  | .duty d => d
  | _ => 0

/-- The state of a state code; codes above 7 are skipped (spec/04 R63). -/
def stateCodeOf : Nat → Option StateCode
  | 0 => some .unknown
  | 1 => some .off
  | 2 => some .on
  | 3 => some .closed
  | 4 => some .opened
  | 5 => some .moving
  | 6 => some .jammed
  | 7 => some .duty
  | _ => none

/-- The code of a reported state (spec/01 R20). -/
def StateCode.code : StateCode → Nat
  | .unknown => 0
  | .off => 1
  | .on => 2
  | .closed => 3
  | .opened => 4
  | .moving => 5
  | .jammed => 6
  | .duty => 7

/-- R62: the pairings in which a reported state agrees with a commanded state. -/
def agrees (c : Commanded) (r : Reported) : Bool :=
  match c with
  | .unknown => true
  | .off => r.code == .off
  | .on => r.code == .on
  | .closed => r.code == .closed
  | .opened => r.code == .opened
  | .duty d => (r.code == .duty && r.duty == d) || (r.code == .off && d == 0)

/-- The code of a responsiveness (spec/04 R61). -/
def Responsiveness.code : Responsiveness → Nat
  | .unknown => 0
  | .responsive => 1
  | .unresponsive => 2

/-- The code of an actuator fault (spec/04 R61). -/
def ActFault.code : ActFault → Nat
  | .none => 0
  | .noFlow => 1
  | .dryRun => 2
  | .jammed => 3
  | .noHeat => 4

/-- The code of an origin (spec/01 R20). -/
def Origin.code : Origin → Nat
  | .fill => 1
  | .guard => 2
  | .frost => 3
  | .frostLeft => 3
  | .allotment => 4
  | .operator => 5
  | .start => 6

/-- Two commands have the same origin (R68). -/
def Origin.same (a b : Origin) : Bool := a.code == b.code

/-- A command of this origin is parked by an operator hold: FILL and FROST (R79). -/
def Origin.parks (o : Origin) : Bool := o.same .fill || o.same .frost

/-- The code of a refusal reason (spec/01 R20). -/
def Reason.code : Reason → Nat
  | .manual => 1
  | .inhibitOverflow => 2
  | .tripLatched => 3
  | .resting => 4
  | .badAction => 5
  | .noPower => 6
  | .queueFull => 7

/-- The code of a fill mode (spec/05 R88). -/
def FillMode.code : FillMode → Nat
  | .idle => 0
  | .waiting => 1
  | .fillingOpp => 2
  | .fillingCommitted => 3
  | .fillingReserve => 4
  | .topped => 5
  | .held => 6
  | .blindHold => 7

/-- The code of a guard band (spec/06 R104). -/
def GuardBand.code : GuardBand → Nat
  | .normal => 0
  | .high => 1
  | .highHigh => 2
  | .trip => 3

/-- The code of a zone state (spec/07 R121). -/
def ZoneState.code : ZoneState → Nat
  | .off => 0
  | .heating => 1
  | .freezeRisk => 2
  | .failed => 3

/-- The code of a proving phase (spec/07 R121). -/
def ProvePhase.code : ProvePhase → Nat
  | .idle => 0
  | .proving => 1
  | .proved => 2

/-- The code of a claim class (spec/08 R138). -/
def ClaimClass.code : ClaimClass → Nat
  | .none => 0
  | .critical => 1
  | .committed => 2
  | .normal => 3
  | .opportunistic => 4

/-- The condition kinds in code order (spec/01 R20). -/
def condKinds : List CondKind :=
  [.overflowNear, .overflowInhibit, .overflowTrip, .levelBlind, .freezeRisk, .reserveLow, .pumpFail, .lineStalled,
    .settingsLost, .gaugeSplit, .gaugeLost, .headStale, .clockUnset, .clockStale, .fillShortfall, .powerShort,
    .queueFull, .loopNoise, .actuatorDiscord, .actuatorLost, .heaterFail, .pumpFault]

/-- The code of a condition kind (spec/01 R20). -/
def CondKind.code : CondKind → Nat
  | .overflowNear => 0
  | .overflowInhibit => 1
  | .overflowTrip => 2
  | .levelBlind => 3
  | .freezeRisk => 4
  | .reserveLow => 5
  | .pumpFail => 6
  | .lineStalled => 7
  | .settingsLost => 8
  | .gaugeSplit => 9
  | .gaugeLost => 10
  | .headStale => 11
  | .clockUnset => 12
  | .clockStale => 13
  | .fillShortfall => 14
  | .powerShort => 15
  | .queueFull => 16
  | .loopNoise => 17
  | .actuatorDiscord => 18
  | .actuatorLost => 19
  | .heaterFail => 20
  | .pumpFault => 21

/-- Codes 0 to 8 are the URGENT kinds (spec/09 section 9.1). -/
def CondKind.urgent (k : CondKind) : Bool := decide (k.code ≤ 8)

/-- The slot of a report item (spec/01 R20). -/
def ReportItem.slot : ReportItem → Slot
  | .policy entry value =>
      let v := (value % 16777216).toNat
      slotOf (0x50 + entry) (v / 65536) (v / 256) v
  | .condition kind flags occurrences => slotOf 0x70 kind.code flags occurrences
  | .refusal idx code reason => slotOf 0x71 idx code reason
  | .cancelled idx code origin => slotOf 0x72 idx code origin
  | .holdEnded idx cause => slotOf 0x73 idx cause 0

end Sys2Proof.Machine
end

