-- ==== Sys2Proof/Machine/Ops.lean ====
section
/-!
DEFINITION. The shared operations: reading and changing table entries, timers, tellings, and what the tables say of a head
or an actuator. A block has no exception to take and no memory, so the named operations are these.
-/

namespace Sys2Proof.Machine

/-! ## Tables -/

/-- Change entry `i` of a table; a table has no entry past its end to change. -/
def updateAt {α : Type} (f : α → α) : Nat → List α → List α
  | _, [] => []
  | 0, x :: xs => f x :: xs
  | i + 1, x :: xs => x :: updateAt f i xs

/-! ## Timers -/

/-- A timer started with an expiry `d` seconds from now. -/
def Env.after (e : Env) (d : Nat) : Timer := some (e.now + d)

/-- The seconds to a timer's expiry, absent when it is stopped (spec/11 R175). -/
def Env.left (e : Env) (t : Timer) : Option Nat := t.map (fun x => x - e.now)

/-! ## Tellings -/

/-- Bring entry `k` of a list to its front. -/
def bringFront {α : Type} : Nat → List α → List α
  | _, [] => []
  | 0, xs => xs
  | k + 1, x :: xs =>
      match bringFront k xs with
      | [] => [x]
      | y :: ys => y :: x :: ys

/-- The order of a list that the choice `n` names: choice 0 leaves the list as it stands, and every order has a choice.
The first argument bounds the recursion by the list's length. -/
def ordered {α : Type} : Nat → Nat → List α → List α
  | 0, _, xs => xs
  | fuel + 1, n, xs =>
      match bringFront (n % xs.length) xs with
      | [] => []
      | y :: ys => y :: ordered fuel (n / xs.length) ys

/-- Tell one event: it joins the tail of the tellings. -/
def Jobs.post (ev : Event) (j : Jobs) : Jobs := { j with work := j.work ++ [ev] }

/-- Tell the events of a change "in no set order": the next free choice says in which (log 1). -/
def Jobs.tell (evs : List Event) (j : Jobs) : Jobs :=
  { j with work := j.work ++ ordered evs.length (j.choices.headD 0) evs, choices := j.choices.tail }

/-- Tell events before every telling that already waits, in the order that the next free choice names: a level change, so
that each consumer reads the Level Record as this recomputation left it (spec/03 R41), and the zones of one event (spec/07
R122). -/
def Jobs.tellFirst (evs : List Event) (j : Jobs) : Jobs :=
  { j with work := ordered evs.length (j.choices.headD 0) evs ++ j.work, choices := j.choices.tail }

/-- R141: a pass is taken whole at the event that starts it: before every telling that already waits (log 2). -/
def Jobs.startPass (j : Jobs) : Jobs := { j with work := .pass :: j.work }

/-! ## Heads (spec/02) -/

/-- The settings of the head at field address `a`, 1..47. -/
def Settings.head (s : Settings) (a : Nat) : HeadSettings :=
  if a = 0 then .factory else s.heads.getD (a - 1) .factory

/-- A head is known when its entry is enabled (R22). -/
def Settings.known (s : Settings) (a : Nat) : Bool := (s.head a).enabled

/-- The runtime record of the head at field address `a`. -/
def Env.head (e : Env) (a : Nat) : HeadRuntime :=
  if a = 0 then .powerOn else e.heads.getD (a - 1) .powerOn

/-- Change the runtime record of the head at field address `a`. -/
def Env.updateHead (a : Nat) (f : HeadRuntime → HeadRuntime) (e : Env) : Env :=
  if a = 0 then e else { e with heads := updateAt f (a - 1) e.heads }

/-- The position of the first entry that passes a test. -/
def firstWhere {α : Type} (p : α → Bool) : List α → Option Nat
  | [] => none
  | x :: xs => if p x then some 0 else (firstWhere p xs).map (· + 1)

/-- The field address of the known head of a kind that passes a test of its role. -/
def Settings.knownHead (s : Settings) (k : HeadKind) (role : Nat → Bool) : Option Nat :=
  (firstWhere (fun h => h.enabled && h.kind == k && role h.role) s.heads).map (· + 1)

/-- The known head of a kind, whatever its role. -/
def Settings.knownKind (s : Settings) (k : HeadKind) : Option Nat := s.knownHead k (fun _ => true)

/-! ## Actuators (spec/04) -/

/-- The settings of actuator `i`. -/
def Settings.act (s : Settings) (i : Nat) : ActSettings := s.actuators.getD i .factory

/-- An entry is in use when its head address is not 0 (R60). -/
def ActSettings.inUse (a : ActSettings) : Bool := a.address != 0

/-- An entry is in use. -/
def Settings.actInUse (s : Settings) (i : Nat) : Bool := (s.act i).inUse

/-- The in-use entry whose head address is the one given; no entry has address 0. -/
def Settings.actAt (s : Settings) (address : Nat) : Option Nat :=
  firstWhere (fun a => a.inUse && a.address == address) s.actuators

/-- The runtime record of actuator `i`. -/
def Jobs.act (j : Jobs) (i : Nat) : ActRuntime := j.acts.getD i .powerOn

/-- Change the runtime record of actuator `i`. -/
def Jobs.updateAct (i : Nat) (f : ActRuntime → ActRuntime) (j : Jobs) : Jobs :=
  { j with acts := updateAt f i j.acts }

/-- Pump n (R60): the in-use PUMP entry whose head address holds a known PUMP head with role n. -/
def Settings.pump (s : Settings) (n : Nat) : Option Nat :=
  firstWhere (fun a => a.inUse && a.kind == .pump && (s.head a.address).enabled
    && (s.head a.address).kind == .pump && (s.head a.address).role == n) s.actuators

/-- The number of the pump that an entry is, if it is pump 1 or pump 2. -/
def Settings.pumpNumber (s : Settings) (i : Nat) : Option Nat :=
  if s.pump 1 = some i then some 1 else if s.pump 2 = some i then some 2 else none

/-- The inlet valve (R60). -/
def Settings.inlet (s : Settings) : Option Nat :=
  firstWhere (fun a => a.inUse && a.kind == .valveInlet) s.actuators

/-- The drain valve (R60). -/
def Settings.drain (s : Settings) : Option Nat :=
  firstWhere (fun a => a.inUse && a.kind == .valveDrain) s.actuators

/-- The heater of a zone (spec/07 R119): the named in-use HEATER entry whose head address holds a known HEATER head of
that role. -/
def Settings.heater (s : Settings) (z : Nat) : Option Nat :=
  match (s.zones.getD z .factory).heater with
  | none => none
  | some i =>
      let a := s.act i
      if a.inUse && a.kind == .heater && (s.head a.address).enabled && (s.head a.address).kind == .heater
          && (s.head a.address).role == z then some i else none

/-- The zone whose heater an entry is. -/
def Settings.heaterZone (s : Settings) (i : Nat) : Option Nat :=
  [0, 1, 2, 3].find? (fun z => s.heater z == some i)

/-- The probe of a zone: the known PROBE head whose role is the zone (R119). -/
def Settings.probe (s : Settings) (z : Nat) : Option Nat := s.knownHead .probe (fun r => r == z)

/-- A zone is fitted when it has a probe or a heater (R119). -/
def Settings.fitted (s : Settings) (z : Nat) : Bool := (s.probe z).isSome || (s.heater z).isSome

/-- The rated units of a zone: those of its heater entry (R119). -/
def Settings.zoneRated (s : Settings) (z : Nat) : Nat :=
  match s.heater z with
  | none => 0
  | some i => (s.act i).rated

/-! ## Commanded states (spec/04 R62) -/

/-- The state that a queue item asks of actuator `i`; a QUERY asks none. -/
def QueueItem.asks (i : Nat) : QueueItem → Option Commanded
  | .cmd idx action _ => if idx = i then action.commanded else none
  | .fence _ => none

/-- The commanded state: the action of the unsent item nearest the tail, and without one the settled command (R62). -/
def Jobs.commanded (j : Jobs) (i : Nat) : Commanded :=
  ((j.queue.filterMap (QueueItem.asks i)).getLast?).getD (j.act i).settled

/-- Actuator `i` has an In-Flight Table entry. -/
def Jobs.inFlight (j : Jobs) (i : Nat) : Bool := j.flight.any (fun f => f.idx == i)

/-! ## Other records -/

/-- The run record of pump n, 1 or 2 (spec/05 R97). -/
def Jobs.run (j : Jobs) (n : Nat) : Run := if n = 0 then .powerOn else j.runs.getD (n - 1) .powerOn

/-- Change the run record of pump n. -/
def Jobs.updateRun (n : Nat) (f : Run → Run) (j : Jobs) : Jobs :=
  if n = 0 then j else { j with runs := updateAt f (n - 1) j.runs }

/-- The pump whose run is not STOPPED; at most one is (R97). -/
def Jobs.running (j : Jobs) : Option Nat :=
  if (j.run 1).phase != .stopped then some 1 else if (j.run 2).phase != .stopped then some 2 else none

/-- The record of zone `z` (spec/07 R121). -/
def Jobs.zone (j : Jobs) (z : Nat) : Zone := j.frost.zones.getD z .powerOn

/-- Change the record of zone `z`. -/
def Jobs.updateZone (z : Nat) (f : Zone → Zone) (j : Jobs) : Jobs :=
  { j with frost := { j.frost with zones := updateAt f z j.frost.zones } }

/-- The Claim Record of a consumer 0..5: pump 1, pump 2, zones 0..3 (spec/08 R138). -/
def Jobs.claim (j : Jobs) (c : Nat) : Claim := j.power.claims.getD c .powerOn

/-- Change the Claim Record of a consumer. -/
def Jobs.updateClaim (c : Nat) (f : Claim → Claim) (j : Jobs) : Jobs :=
  { j with power := { j.power with claims := updateAt f c j.power.claims } }

/-- The granted total (spec/08 R138). -/
def Power.total (p : Power) : Nat := (p.claims.map (·.granted)).sum

/-! ## Counters (spec/11 R180) -/

/-- Change the counters. -/
def Jobs.count (f : Counters → Counters) (j : Jobs) : Jobs := { j with counters := f j.counters }

/-- A cell discarded at a port, or a bad one, counts there (counters 3 and 4). -/
def Jobs.countBad (p : Port) (j : Jobs) : Jobs :=
  match p with
  | .field => j.count (fun c => { c with bad3F := c.bad3F + 1#32 })
  | .line => j.count (fun c => { c with bad4L := c.bad4L + 1#32 })

/-- A refusal counts (counter 11). -/
def Jobs.countRefusal (j : Jobs) : Jobs := j.count (fun c => { c with refusals11 := c.refusals11 + 1#32 })

end Sys2Proof.Machine
end

