-- ==== Sys2Proof/Machine/Report.lean ====
section
/-!
DEFINITION. The Report unit (spec/10): quantities, value events, the routine due list, the notice queue, and the packing
of report cells. The functions on `Tele` change nothing else; what they read of the rest stands in `TeleEnv`.
-/

namespace Sys2Proof.Machine

/-- What the Condition and Report units read of the rest of the part. -/
structure TeleEnv where
  now : Nat
  tow : TimeOfWeek
  /-- the trip latch (R150) -/
  latch : Bool
  alerts : AlertSettings
  packHold : Nat
  policy : List PolicySettings
  /-- the figures of the quantities, by code (R160) -/
  figures : List (Option Int)
  deriving DecidableEq, Repr

/-! ## Quantities (R160) -/

/-- The figure of an actuator quantity: 10 times the commanded state code plus the reported state code, 0 for an absent
actuator (R160). -/
def Jobs.actFigure (j : Jobs) (i : Option Nat) : Option Int :=
  match i with
  | none => some 0
  | some i => some (10 * ((j.commanded i).code : Int) + ((j.act i).reported.code.code : Int))

/-- The figure of each quantity, by its code 0..21; code 0 names none (R160). -/
def figures (e : Env) (j : Jobs) : List (Option Int) :=
  let zone := fun z => j.zone z
  [none, some (j.level.fill : Int), some (j.level.guard : Int), some (j.level.volume : Int), j.frost.air,
    (zone 0).tEff, (zone 1).tEff, (zone 2).tEff, (zone 3).tEff,
    (zone 0).commandedDuty.map Int.ofNat, (zone 1).commandedDuty.map Int.ofNat,
    (zone 2).commandedDuty.map Int.ofNat, (zone 3).commandedDuty.map Int.ofNat,
    j.fill.inletFlow.map Int.ofNat, some (j.power.total : Int), some (j.fill.mode.code : Int),
    some (j.guard.band.code : Int), j.actFigure (e.set.pump 1), j.actFigure (e.set.pump 2),
    j.actFigure e.set.inlet, j.actFigure e.set.drain, some (j.frost.age : Int)]

/-- What the Condition and Report units read, in the state given. -/
def teleEnv (e : Env) (j : Jobs) : TeleEnv :=
  { now := e.now, tow := e.clock.tow, latch := j.guard.latch, alerts := e.set.alerts,
    packHold := e.set.general.packHold, policy := e.set.policy, figures := figures e j }

/-- The settings of a policy entry. -/
def TeleEnv.policyAt (v : TeleEnv) (i : Nat) : PolicySettings := v.policy.getD i .factory

/-- The figure that a policy entry names, as it stands. -/
def TeleEnv.figure (v : TeleEnv) (i : Nat) : Option Int := v.figures.getD (v.policyAt i).quantity none

/-- The value packed for a figure: the none mark when it is absent (R160). -/
def packed (f : Option Int) : Int := f.getD Config.noneMark

/-- A timer of a policy entry, started at its interval; an interval of 0 leaves it stopped (R162). -/
def TeleEnv.started (v : TeleEnv) (interval : Nat) : Timer :=
  if interval = 0 then none else some (v.now + interval)

/-! ## Conditions as the packing reads them -/

/-- The Condition Table entry of a kind. -/
def Tele.cond (t : Tele) (k : CondKind) : Cond := t.conds.getD k.code .powerOn

/-- Change the entry of a kind. -/
def Tele.updateCond (k : CondKind) (f : Cond → Cond) (t : Tele) : Tele :=
  { t with conds := updateAt f k.code t.conds }

/-- The runtime record of a policy entry. -/
def Tele.policy (t : Tele) (i : Nat) : PolicyRuntime := t.policies.getD i .powerOn

/-- Change the runtime record of a policy entry. -/
def Tele.updatePolicy (i : Nat) (f : PolicyRuntime → PolicyRuntime) (t : Tele) : Tele :=
  { t with policies := updateAt f i t.policies }

/-- R151: the CONDITION item of a kind, from its entry as it stands. -/
def Tele.condItem (t : Tele) (k : CondKind) : ReportItem :=
  .condition k ((if (t.cond k).active then 1 else 0) + (if (t.cond k).acked then 2 else 0)) (t.cond k).occurrences

/-! ## Report cells (R165, R166) -/

/-- A cell with fewer than 3 items has room. -/
def ReportCell.room (c : ReportCell) : Bool := decide (c.items.length < Config.cellItemMax)

/-- A cell with 3 items is full. -/
def ReportCell.full (c : ReportCell) : Bool := !c.room

/-- The cell holds an item for a policy entry. -/
def ReportCell.hasPolicy (c : ReportCell) (i : Nat) : Bool :=
  c.items.any (fun x => match x with | .policy n _ => n == i | _ => false)

/-- The cell holds an item for a condition kind. -/
def ReportCell.hasKind (c : ReportCell) (k : CondKind) : Bool :=
  c.items.any (fun x => match x with | .condition n _ _ => n == k | _ => false)

/-- R165: a notice is eligible for a cell with room; a CONDITION notice only when the cell holds no item of its kind. -/
def ReportCell.takesNotice (c : ReportCell) (n : Notice) : Bool :=
  match n with
  | .condition k => c.room && !c.hasKind k
  | _ => c.room

/-- R165: a policy entry is eligible for a cell with room that holds no item of the entry. -/
def ReportCell.takesPolicy (c : ReportCell) (i : Nat) : Bool := c.room && !c.hasPolicy i

/-- R168: a routine cell after packing one item: its pack hold starts with the first item (READY at once when PACK_HOLD
is 0), and the third item makes it READY and stops the timer. -/
def ReportCell.packRoutine (v : TeleEnv) (item : ReportItem) (c : ReportCell) : ReportCell :=
  let items := c.items ++ [item]
  if items.length ≥ Config.cellItemMax then { items := items, ready := true, hold := none }
  else if c.items.isEmpty then
    if v.packHold = 0 then { items := items, ready := true, hold := none }
    else { items := items, ready := false, hold := some (v.now + v.packHold) }
  else { c with items := items }

/-- The oldest due entry that is eligible for a cell (R166). -/
def oldestDue (c : ReportCell) (due : List Nat) : Option Nat := due.find? (fun i => c.takesPolicy i)

/-- R165, R162: a policy entry packed: it leaves the due list, takes the figure as its last reported value, and starts
its timers. -/
def Tele.policyPacked (v : TeleEnv) (i : Nat) (t : Tele) : Tele :=
  { t with due := t.due.erase i }.updatePolicy i (fun p =>
    { p with last := some (packed (v.figure i)), lastTime := some v.tow, due := false,
             minTimer := v.started (v.policyAt i).minInterval, maxTimer := v.started (v.policyAt i).maxInterval })

/-- R151, R153: a kind's item packed: report pending and the queued mark are cleared. -/
def Tele.kindPacked (k : CondKind) (t : Tele) : Tele :=
  t.updateCond k (fun c => { c with pending := false, queued := false })

/-- The item of a notice (R165). -/
def Tele.noticeItem (t : Tele) : Notice → ReportItem
  | .refusal idx code reason => .refusal idx code reason
  | .cancelled idx code origin => .cancelled idx code origin
  | .holdEnded idx cause => .holdEnded idx cause
  | .condition k => t.condItem k

/-- The notice at the head of the queue packed: it leaves, and the Condition unit is told of a CONDITION notice
(R164, R165). -/
def Tele.noticePacked (n : Notice) (t : Tele) : Tele :=
  let t := { t with notices := t.notices.tail }
  match n with
  | .condition k => t.kindPacked k
  | _ => t

/-- R166: one source packed into a routine cell: the head notice when it is eligible, otherwise the oldest eligible due
entry. -/
def packOne (v : TeleEnv) (c : ReportCell) (t : Tele) : Option (ReportCell × Tele) :=
  let fromDue :=
    match oldestDue c t.due with
    | some i => some (c.packRoutine v (.policy i (packed (v.figure i))), t.policyPacked v i)
    | none => none
  match t.notices with
  | n :: _ => if c.takesNotice n then some (c.packRoutine v (t.noticeItem n), t.noticePacked n) else fromDue
  | [] => fromDue

/-- R166, R169: one packing of the routine assembler: into the open cell while it has room, and once it is full into
the run-ahead cell, which begins with its first item. -/
def Tele.packRoutine (v : TeleEnv) (t : Tele) : Option Tele :=
  if t.opened.full then
    (packOne v (t.ahead.getD .empty) t).map (fun r => { r.2 with ahead := some r.1 })
  else
    (packOne v t.opened t).map (fun r => { r.2 with opened := r.1 })

/-- R167: one packing of the urgent assembler, from the head of the urgent due list; the cell is READY with its first
item. -/
def Tele.packUrgent (t : Tele) : Option Tele :=
  match t.urgentDue with
  | [] => none
  | k :: rest =>
      if t.urgent.room && !t.urgent.hasKind k then
        some ({ t with urgentDue := rest,
                       urgent := { t.urgent with items := t.urgent.items ++ [t.condItem k], ready := true } }.kindPacked k)
      else none

/-- Repeat a packing while it finds a source; the bound is the room of the cells. -/
def packLoop (step : Tele → Option Tele) : Nat → Tele → Tele
  | 0, t => t
  | n + 1, t =>
      match step t with
      | none => t
      | some t' => packLoop step n t'

/-- R166: the cells take items whenever they have room and an eligible source waits. At most 3 items fit the urgent cell
and 6 the two routine cells. -/
def Tele.pack (v : TeleEnv) (t : Tele) : Tele :=
  packLoop (Tele.packRoutine v) 6 (packLoop Tele.packUrgent 3 t)

/-! ## Notices (R164) -/

/-- The oldest notice of a full queue is dropped and counted; the Condition unit is told of a CONDITION notice (R153,
R164). -/
def Tele.dropOldest (t : Tele) : Tele :=
  match t.notices with
  | [] => t
  | n :: rest =>
      let t := { t with notices := rest, dropped := t.dropped + 1#32 }
      match n with
      | .condition k => t.updateCond k (fun c => { c with queued := false })
      | _ => t

/-- R164: a posted notice joins the tail; a full queue first drops its oldest. The cells then take what they can. -/
def Tele.postNotice (v : TeleEnv) (n : Notice) (t : Tele) : Tele :=
  let t := if t.notices.length ≥ Config.noticeMax then t.dropOldest else t
  { t with notices := t.notices ++ [n] }.pack v

/-! ## Value events (R161 to R163) -/

/-- R161: the move test, against the last reported value. -/
def moveTest (last : Option Int) (figure : Option Int) (deadband : Nat) : Bool :=
  match last with
  | none => true
  | some l =>
      match figure with
      | none => l != Config.noneMark
      | some f => if l = Config.noneMark then true else decide (deadband < (f - l).natAbs)

/-- R163: an entry becomes due: its flag is set and it joins the tail of the due list, unless it is due already. -/
def Tele.becomeDue (i : Nat) (t : Tele) : Tele :=
  if (t.policy i).due then t
  else { t with due := t.due ++ [i] }.updatePolicy i (fun p => { p with due := true })

/-- R161: a value event at one entry. -/
def Tele.valueEvent (v : TeleEnv) (i : Nat) (t : Tele) : Tele :=
  if (t.policy i).due || (t.policy i).minTimer.isSome then t
  else if moveTest (t.policy i).last (v.figure i) (v.policyAt i).deadband then t.becomeDue i else t

/-- R161: the change of a quantity is a value event for every entry that names it, in index order. -/
def Tele.quantityChanged (v : TeleEnv) (q : Nat) (t : Tele) : Tele :=
  ((List.range 24).foldl (fun t i => if (v.policyAt i).quantity = q then t.valueEvent v i else t) t).pack v

/-- The quantities whose figures changed at one change, told in the order of their codes, which the spec leaves open (R160,
R161; log 26). -/
def Tele.figuresChanged (v : TeleEnv) (before : List (Option Int)) (t : Tele) : Tele :=
  (List.range 22).foldl
    (fun t q => if q ≠ 0 ∧ before.getD q none ≠ v.figures.getD q none then t.quantityChanged v q else t) t

/-- R162: the minimum timer expires: the move test is made on the figure now held. -/
def Tele.minimumExpiry (v : TeleEnv) (i : Nat) (t : Tele) : Tele :=
  if (t.policy i).minTimer.isSome then
    let t := t.updatePolicy i (fun p => { p with minTimer := none })
    (if !(t.policy i).due && moveTest (t.policy i).last (v.figure i) (v.policyAt i).deadband then t.becomeDue i
      else t).pack v
  else t

/-- R162: the maximum timer expires: the entry becomes due. -/
def Tele.maximumExpiry (v : TeleEnv) (i : Nat) (t : Tele) : Tele :=
  if (t.policy i).maxTimer.isSome then
    ((t.updatePolicy i (fun p => { p with maxTimer := none })).becomeDue i).pack v
  else t

/-- R168, R169: a routine cell's pack hold expires: the cell becomes READY. -/
def Tele.packHoldExpiry (cell : RoutineCell) (t : Tele) : Tele :=
  match cell with
  | .opened =>
      if t.opened.hold.isSome then { t with opened := { t.opened with ready := true, hold := none } } else t
  | .runAhead =>
      { t with ahead := t.ahead.map (fun c => if c.hold.isSome then { c with ready := true, hold := none } else c) }

/-- R171: after a reset every entry that is not idle becomes due, in index order. -/
def Tele.allDue (v : TeleEnv) (t : Tele) : Tele :=
  ((List.range 24).foldl (fun t i => if (v.policyAt i).quantity = 0 then t else t.becomeDue i) t).pack v

/-! ## Sends (R15, R167, R169) -/

/-- The urgent cell's send begins: the buffer becomes EMPTY, and a new cell is begun if the list holds a kind (R167). -/
def Tele.urgentSent (v : TeleEnv) (t : Tele) : Tele := { t with urgent := .empty }.pack v

/-- The open cell's send begins: the run-ahead cell takes its place (R168, R169). -/
def Tele.openedSent (v : TeleEnv) (t : Tele) : Tele := { t with opened := t.ahead.getD .empty, ahead := none }.pack v

/-- Apply a function of the Condition and Report units. -/
def Jobs.tele' (f : TeleEnv → Tele → Tele) (e : Env) (j : Jobs) : Jobs := { j with tele := f (teleEnv e j) j.tele }

/-- Post a notice (R164). -/
def Jobs.notice (e : Env) (n : Notice) (j : Jobs) : Jobs := j.tele' (fun v t => t.postNotice v n) e

end Sys2Proof.Machine
end

