-- ==== Sys2Proof/Machine/Flags.lean ====
section
/-!
DEFINITION. The Condition unit (spec/09): raise, clear and acknowledgement of a kind, the urgent due list, the routine
notices, and the alert line. These are the part's flags; every block raises and clears them here.
-/

namespace Sys2Proof.Machine

/-- The alert enable of a kind; ROUTINE kinds have none (R148). -/
def AlertSettings.enabled (a : AlertSettings) (k : CondKind) : Bool :=
  k.urgent && a.enables.getD k.code false

/-- R157: in LEVEL mode the line is asserted exactly while an alert-enabled URGENT kind is active and unacknowledged. -/
def Tele.alertLevel (v : TeleEnv) (t : Tele) : Bool :=
  condKinds.any (fun k => v.alerts.enabled k && (t.cond k).active && !(t.cond k).acked)

/-- R157: the line is derived again in LEVEL mode; PULSE mode leaves it as it is. -/
def Tele.deriveAlert (v : TeleEnv) (t : Tele) : Tele :=
  match v.alerts.mode with
  | .level => { t with alert := t.alertLevel v }
  | .pulse => t

/-- R158: the width of a pulse in milliseconds. -/
def AlertSettings.pulseWidth (a : AlertSettings) : Nat := 2000 - a.pulseStep * 250

/-- R157, R158: what a raise of a kind does to the line. -/
def Tele.alertOnRaise (v : TeleEnv) (k : CondKind) (t : Tele) : Tele :=
  match v.alerts.mode with
  | .level => t.deriveAlert v
  | .pulse =>
      if v.alerts.enabled k then { t with alert := true, pulse := some (v.now * 1000 + v.alerts.pulseWidth) } else t

/-- R152: an URGENT kind joins the urgent due list unless it stands there. -/
def Tele.joinUrgent (k : CondKind) (t : Tele) : Tele :=
  if t.urgentDue.contains k then t else { t with urgentDue := t.urgentDue ++ [k] }

/-- R153: a CONDITION notice for a ROUTINE kind, unless its queued mark is set. -/
def Tele.noticeKind (v : TeleEnv) (k : CondKind) (t : Tele) : Tele :=
  if (t.cond k).queued then t
  else (t.updateCond k (fun c => { c with queued := true })).postNotice v (.condition k)

/-- A change of an entry goes to its list: the urgent due list (R152) or a notice (R153). -/
def Tele.report (v : TeleEnv) (k : CondKind) (t : Tele) : Tele :=
  if k.urgent then (t.joinUrgent k).pack v else t.noticeKind v k

/-- R149: a raise. -/
def Tele.raise (v : TeleEnv) (k : CondKind) (t : Tele) : Tele :=
  if (t.cond k).active then t
  else
    let t := t.updateCond k (fun c =>
      { c with active := true, acked := false, occurrences := min 255 (c.occurrences + 1), pending := true,
               first := some v.tow, last := some v.tow })
    let t := if k.urgent then t.alertOnRaise v k else t
    t.report v k

/-- R150: a clear; OVERFLOW_TRIP is cleared only while the trip latch is clear. -/
def Tele.clear (v : TeleEnv) (k : CondKind) (t : Tele) : Tele :=
  if !(t.cond k).active || (k == .overflowTrip && v.latch) then t
  else
    let t := t.updateCond k (fun c => { c with active := false, pending := true, last := some v.tow })
    let t := if k.urgent then t.deriveAlert v else t
    t.report v k

/-- R154: an acknowledgement. -/
def Tele.acknowledge (v : TeleEnv) (k : CondKind) (t : Tele) : Tele :=
  if !(t.cond k).active || (t.cond k).acked then t
  else
    let t := t.updateCond k (fun c => { c with acked := true, pending := true, last := some v.tow })
    let t := if k.urgent then t.deriveAlert v else t
    t.report v k

/-- R153: at a minute boundary, and once a restart is taken (R155), a notice for every pending ROUTINE kind whose queued
mark is clear, in code order. -/
def Tele.repost (v : TeleEnv) (t : Tele) : Tele :=
  condKinds.foldl (fun t k => if !k.urgent && (t.cond k).pending && !(t.cond k).queued then t.noticeKind v k else t) t

/-- R158: the pulse timer expires and the line is released. -/
def Tele.pulseExpiry (t : Tele) : Tele :=
  if t.pulse.isSome then { t with alert := false, pulse := none } else t

/-- R155: an entry of the Condition Table at a restart; `keep` marks the two kinds that stay as they stood. -/
def Cond.restart (v : TeleEnv) (keep : Bool) (c : Cond) : Cond :=
  if keep || !c.active then { c with queued := false }
  else { c with active := false, pending := true, last := some v.tow, queued := false }

/-- R155: the table at a restart: OVERFLOW_TRIP is kept while the latch is set, CLOCK_UNSET while the clock is UNSET. -/
def Tele.condRestart (v : TeleEnv) (unset : Bool) (t : Tele) : Tele :=
  { t with conds := (condKinds.map (fun k =>
      (t.cond k).restart v ((k == .overflowTrip && v.latch) || (k == .clockUnset && unset)))) }

/-- R155: the urgent due list refilled, in code order, with every URGENT kind whose report is pending. -/
def Tele.refillUrgent (t : Tele) : Tele :=
  { t with urgentDue := condKinds.filter (fun k => k.urgent && (t.cond k).pending) }

/-- A kind is active. -/
def Jobs.active (j : Jobs) (k : CondKind) : Bool := (j.tele.cond k).active

/-- Raise a kind (R149). -/
def Jobs.raise (e : Env) (k : CondKind) (j : Jobs) : Jobs := j.tele' (fun v t => t.raise v k) e

/-- Clear a kind (R150). -/
def Jobs.clear (e : Env) (k : CondKind) (j : Jobs) : Jobs := j.tele' (fun v t => t.clear v k) e

/-- Raise a kind when a test holds and clear it otherwise; each changes nothing where the kind already stands so. -/
def Jobs.keep (e : Env) (k : CondKind) (holds : Bool) (j : Jobs) : Jobs :=
  if holds then j.raise e k else j.clear e k

end Sys2Proof.Machine
end

