-- ==== Sys2Proof/Machine/Level.lean ====
section
/-!
DEFINITION. The Level unit (spec/03): conversion of the gauges, fusion, volume, the split timer and the gauge conditions.
-/

namespace Sys2Proof.Machine

/-! ## Conversion (R42, R44, R51) -/

/-- A gauge level from the level before the TANK_HEIGHT_MM clamp and the mark of its conversion (R42, R44, R51). -/
def gaugeLevel (tank raw : Nat) (offScale : Bool) : GaugeLevel :=
  { raw := raw, offScale := offScale, level := min raw tank, mark := offScale || decide (tank < raw) }

/-- R42: gauge A's count as a level before the clamp. -/
def countLevel (count z s f : Nat) : Nat := if count ≤ z then 0 else (count - z) * f / s

/-- R42: gauge A's count converted, with Intake's mark. -/
def convertA (tank count : Nat) (mark : Bool) (z s f : Nat) : GaugeLevel :=
  gaugeLevel tank (countLevel count z s f) mark

/-- R44: gauge B's distance converted, with Intake's mark; a distance beyond the mount height is marked. -/
def convertB (tank distance : Nat) (mark : Bool) (mount : Nat) : GaugeLevel :=
  gaugeLevel tank (mount - distance) (mark || decide (mount < distance))

/-- R51: a present level clamped anew to the tank height in force. -/
def GaugeLevel.reclamp (tank : Nat) (g : GaugeLevel) : GaugeLevel := gaugeLevel tank g.raw g.offScale

/-! ## Volume (R53) -/

/-- The volume at a level on a run of points. -/
def volumeOn : List Point → Nat → Nat
  | [], _ => 0
  | [p], _ => p.volume
  | p :: q :: rest, level =>
      if p.level ≤ level ∧ level < q.level then
        p.volume + (level - p.level) * (q.volume - p.volume) / (q.level - p.level)
      else volumeOn (q :: rest) level

/-- The volume at a level by the in-use points of the table in use (R53). -/
def Settings.volumeAt (s : Settings) (level : Nat) : Nat := volumeOn (s.points.take s.pointsInUse) level

/-! ## Fusion (R46, R47) -/

/-- The difference-or-zero of the higher and the lower of two levels. -/
def apart (a b : Nat) : Nat := max a b - min a b

/-- R46: the fusion state of the two gauge levels. -/
def fusionOf (tol : Nat) (a b : Option GaugeLevel) : Fusion :=
  match a, b with
  | some a, some b => if apart a.level b.level ≤ tol then .agree else .split
  | some _, none => .singleA
  | none, some _ => .singleB
  | none, none => .blind

/-- R46, R50: the fill level; in BLIND the one held, clamped to the tank height. -/
def fillOf (tol tank held : Nat) (a b : Option GaugeLevel) : Nat :=
  match a, b with
  | some a, some b => if apart a.level b.level ≤ tol then (a.level + b.level) / 2 else min a.level b.level
  | some a, none => a.level
  | none, some b => b.level
  | none, none => min held tank

/-- R46, R47, R50: the guard level, with the frost-suspect flags of gauges A and B. -/
def guardOf (tol tank held : Nat) (suspectA suspectB : Bool) (a b : Option GaugeLevel) : Nat :=
  match a, b with
  | some a, some b =>
      if apart a.level b.level ≤ tol then (a.level + b.level) / 2
      else if suspectA && !suspectB then b.level
      else if suspectB && !suspectA then a.level
      else max a.level b.level
  | some a, none => a.level
  | none, some b => b.level
  | none, none => min held tank

/-- The frost-suspect flag of the known gauge of a kind (R36, R45). -/
def Jobs.suspect (s : Settings) (k : HeadKind) (j : Jobs) : Bool :=
  match s.knownKind k with
  | none => false
  | some a => j.suspects.getD (a - 1) false

/-- A present gauge level carries its clamped mark. -/
def marked (g : Option GaugeLevel) : Bool := (g.map (·.mark)).getD false

/-- R40 steps 2 to 4, R48: the Level Record derived from the two gauge levels. -/
def LevelRecord.derive (e : Env) (suspectA suspectB : Bool) (a b : Option GaugeLevel) (r : LevelRecord) : LevelRecord :=
  let g := e.set.general
  let fusion := fusionOf g.agreeTol a b
  let fill := fillOf g.agreeTol g.tankHeight r.fill a b
  { gaugeA := a
    gaugeB := b
    fusion := fusion
    fill := fill
    guard := guardOf g.agreeTol g.tankHeight r.guard suspectA suspectB a b
    aged := fusion == Fusion.blind
    volume := e.set.volumeAt fill
    overRange := marked a || marked b
    split := if fusion != .split then none else if r.fusion == .split then r.split else e.after g.disagreeHold
    lastChange := r.lastChange }

/-- R41: the fields whose change is a level change. -/
def LevelRecord.sameLevels (r s : LevelRecord) : Bool :=
  r.fusion == s.fusion && r.fill == s.fill && r.guard == s.guard && r.aged == s.aged && r.volume == s.volume
    && r.overRange == s.overRange

/-- The state of the known gauge of a kind is STALE or FAULTY (R49). -/
def gaugeDown (e : Env) (k : HeadKind) : Bool :=
  match e.set.knownKind k with
  | none => false
  | some a => (e.head a).state == .stale || (e.head a).state == .faulty

/-- R49: the GAUGE_LOST test after a recomputation. -/
def Jobs.gaugeLostTest (e : Env) (was : Fusion) (j : Jobs) : Jobs :=
  let dropped := was == .agree || was == .split
  match j.level.fusion with
  | .singleA => if dropped || gaugeDown e .gaugeRanging then j.raise e .gaugeLost else j
  | .singleB => if dropped || gaugeDown e .gaugePressure then j.raise e .gaugeLost else j
  | .agree => j.clear e .gaugeLost
  | .split => j.clear e .gaugeLost
  | .blind => j

/-- R48: GAUGE_SPLIT is cleared when a recomputation enters AGREE. -/
def Jobs.gaugeSplitTest (e : Env) (was : Fusion) (j : Jobs) : Jobs :=
  if j.level.fusion == .agree && was != .agree then j.clear e .gaugeSplit else j

/-- R40: a recomputation with the two gauge levels given, each first clamped to the tank height in force (R51); and the
level change it hands on (R41). The Report unit learns of the changed figures by `observe`. -/
def Jobs.recompute (e : Env) (a b : Option GaugeLevel) (j : Jobs) : Jobs :=
  let tank := e.set.general.tankHeight
  let old := j.level
  let new := old.derive e (j.suspect e.set .gaugePressure) (j.suspect e.set .gaugeRanging)
    (a.map (GaugeLevel.reclamp tank)) (b.map (GaugeLevel.reclamp tank))
  if new.sameLevels old then
    (({ j with level := new }.gaugeSplitTest e old.fusion).gaugeLostTest e old.fusion)
  else
    (({ j with level := { new with lastChange := some e.clock.tow } }.gaugeSplitTest e old.fusion).gaugeLostTest e
      old.fusion).tellFirst [.fillEval, .guardLevel (old.fusion == Fusion.blind)]

/-- A gauge A count is delivered (R40, R42). -/
def Jobs.gaugeA (e : Env) (count : Nat) (mark : Bool) (z s f : Nat) (j : Jobs) : Jobs :=
  j.recompute e (some (convertA e.set.general.tankHeight count mark z s f)) j.level.gaugeB

/-- A gauge B distance is delivered (R40, R44). -/
def Jobs.gaugeB (e : Env) (distance : Nat) (mark : Bool) (mount : Nat) (j : Jobs) : Jobs :=
  j.recompute e j.level.gaugeA (some (convertB e.set.general.tankHeight distance mark mount))

/-- Gauge A is unusable (R40, R45). -/
def Jobs.gaugeAGone (e : Env) (j : Jobs) : Jobs := j.recompute e none j.level.gaugeB

/-- Gauge B is unusable (R40, R45). -/
def Jobs.gaugeBGone (e : Env) (j : Jobs) : Jobs := j.recompute e j.level.gaugeA none

/-- The other events of R40. -/
def Jobs.relevel (e : Env) (j : Jobs) : Jobs := j.recompute e j.level.gaugeA j.level.gaugeB

/-- R48: the split timer expires. -/
def Jobs.splitExpiry (e : Env) (j : Jobs) : Jobs :=
  if j.level.split.isSome then { j with level := { j.level with split := none } }.raise e .gaugeSplit else j

/-- R59: the Level Record at a restart, with the settings then in force. -/
def LevelRecord.restart (e : Env) (r : LevelRecord) : LevelRecord :=
  let fill := min r.fill e.set.general.tankHeight
  let new : LevelRecord :=
    { gaugeA := none, gaugeB := none, fusion := .blind, fill := fill, guard := min r.guard e.set.general.tankHeight,
      aged := true, volume := e.set.volumeAt fill, overRange := false, split := none, lastChange := r.lastChange }
  if new.sameLevels r then new else { new with lastChange := some e.clock.tow }

end Sys2Proof.Machine
end

