-- ==== Sys2Proof/Machine/Actuator.lean ====
section
/-!
DEFINITION. The Actuator unit (spec/04): results, checks, the Command Queue, guard groups, the In-Flight Table, reported
states, discord and operator hold.
-/

namespace Sys2Proof.Machine

/-! ## Queue items -/

/-- Items of guard groups, fences included (R67). -/
def QueueItem.isGuard : QueueItem → Bool
  | .cmd _ _ origin => origin == .guard
  | .fence guard => guard

/-- The item is a fence. -/
def QueueItem.isFence : QueueItem → Bool
  | .cmd .. => false
  | .fence _ => true

/-- The item is a command for actuator `i`. -/
def QueueItem.isFor (i : Nat) : QueueItem → Bool
  | .cmd idx _ _ => idx == i
  | .fence _ => false

/-- The items of the last segment (R67), nearest the tail first. -/
def lastSegment (q : List QueueItem) : List QueueItem := q.reverse.takeWhile (fun x => !x.isFence)

/-- Replace the first command for actuator `i` of a run of items. -/
def replaceFor (i : Nat) (item : QueueItem) : List QueueItem → List QueueItem
  | [] => []
  | x :: xs => if x.isFor i then item :: xs else x :: replaceFor i item xs

/-- Replace in place the command for actuator `i` nearest the tail (R68). -/
def replaceLast (i : Nat) (item : QueueItem) (q : List QueueItem) : List QueueItem :=
  (replaceFor i item q.reverse).reverse

/-! ## Results (R66) -/

/-- Hand a result to a command's origin. START takes none; the guard is told of the end of a START query of a pump or a
valve instead (R106). The result of the DUTY 0 for an entry that a write has left acts on no zone record (R132); a zone that
has the entry as its heater again is evaluated (R122). -/
def Jobs.tellOrigin (e : Env) (o : Origin) (i : Nat) (a : Action) (r : CmdResult) (j : Jobs) : Jobs :=
  match o with
  | .fill => j.post (.fillResult i a r)
  | .guard => j.post (.guardResult i r)
  | .frost => j.post (.frostResult i a r)
  | .frostLeft =>
      match e.set.heaterZone i with
      | some z => j.post (.frostZone z)
      | none => j
  | .allotment => j.post (.powerResult i r)
  | .operator => j.post (.operatorResult i a r)
  | .start => if (e.set.act i).kind == .heater then j else j.post .guardEval

/-- A CANCELLED result, with its notice but for origin START (R66). -/
def Jobs.cancel (e : Env) (o : Origin) (i : Nat) (a : Action) (j : Jobs) : Jobs :=
  (if o == .start then j else j.notice e (.cancelled i a.code o.code)).tellOrigin e o i a .cancelled

/-- A REFUSED result: counted and noticed (R66). -/
def Jobs.refuse (e : Env) (o : Origin) (i : Nat) (a : Action) (r : Reason) (j : Jobs) : Jobs :=
  (j.countRefusal.notice e (.refusal i a.code r.code)).tellOrigin e o i a (.refused r)

/-! ## What queuing an OFF does (R65, R78) -/

/-- Make a pump's operator claim absent, and have the allotment pass that this starts taken (R139). The spec does not say what
becomes of the claim posted for an entry that a HEADS write has since made no pump, or the other pump: the claim of the pump
that the entry now is, is withdrawn, and none where it is no pump (log 29). -/
def Jobs.withdrawOperator (e : Env) (i : Nat) (j : Jobs) : Jobs :=
  match e.set.pumpNumber i with
  | none => j
  | some n =>
      if (j.claim (n - 1)).operator then (j.updateClaim (n - 1) (fun c => { c with operator := false })).startPass
      else j

/-- R65: the rest timer starts, or starts again; with MIN_REST at 0 it does not. The Power allotment is told (R139). -/
def Jobs.startRest (e : Env) (i : Nat) (j : Jobs) : Jobs :=
  if e.set.general.minRest = 0 then j
  else (j.updateAct i (fun a => { a with rest := e.after e.set.general.minRest })).startPass

/-- A command that makes a pump's commanded state OFF has been queued: the pump rests (R65) and its operator claim is
withdrawn (R78, R139). -/
def Jobs.afterQueued (e : Env) (i : Nat) (a : Action) (j : Jobs) : Jobs :=
  if a == .switch false && (e.set.act i).kind == .pump then (j.startRest e i).withdrawOperator e i else j

/-! ## Items leaving the queue -/

/-- R68: QUEUE_FULL is cleared when an item leaves and the queue then holds fewer than 16. -/
def Jobs.spaceTest (e : Env) (j : Jobs) : Jobs :=
  if j.queue.length < Config.queueMax then j.clear e .queueFull else j

/-- R71: leading fences are removed while the In-Flight Table is empty. -/
def Jobs.fenceTest (e : Env) (j : Jobs) : Jobs :=
  match j.flight, j.queue with
  | [], .fence g :: rest =>
      Jobs.spaceTest e { j with queue := (QueueItem.fence g :: rest).dropWhile QueueItem.isFence }
  | _, _ => j

/-- R65: the removal of an unsent pump OFF that leaves the commanded state ON stops the rest timer, and the Fill
controller and the Power allotment are told as at its expiry, in no set order (log 1). -/
def Jobs.restAfter (e : Env) (removed : QueueItem) (j : Jobs) : Jobs :=
  match removed with
  | .cmd i (.switch false) _ =>
      if (e.set.act i).kind == .pump && j.commanded i == .on && (j.act i).rest.isSome then
        (j.updateAct i (fun a => { a with rest := none })).tell [.fillEval, .pass]
      else j
  | _ => j

/-- A non-guard item was removed unsent: a command's origin is told CANCELLED, a fence is dropped without result. -/
def Jobs.removed (e : Env) (item : QueueItem) (j : Jobs) : Jobs :=
  match item with
  | .cmd i a o => (j.cancel e o i a).restAfter e item
  | .fence _ => j

/-- What follows each removal of an item: the fence test of R71 and the QUEUE_FULL test of R68. -/
def Jobs.itemsLeft (e : Env) (j : Jobs) : Jobs := (j.fenceTest e).spaceTest e

/-- Remove the item at the tail, if it is a non-guard item (R70, R145). -/
def Jobs.evictTail (e : Env) (j : Jobs) : Jobs :=
  match j.queue.getLast? with
  | none => j
  | some item => if item.isGuard then j else ({ j with queue := j.queue.dropLast }.removed e item).itemsLeft e

/-- R70: remove non-guard items from the tail until the queue holds 16; the count bounds the removals. -/
def Jobs.evict (e : Env) : Nat → Jobs → Jobs
  | 0, j => j
  | n + 1, j => if j.queue.length ≤ Config.queueMax then j else Jobs.evict e n (j.evictTail e)

/-! ## Joining the queue (R68) -/

/-- An item joins the tail, or finds 16 items there. -/
def Jobs.join (item : QueueItem) (j : Jobs) : Jobs × Bool :=
  if j.queue.length < Config.queueMax then ({ j with queue := j.queue ++ [item] }, true) else (j, false)

/-- R68: a non-guard command coalesces with the actuator's unsent command in the last segment, or joins the tail; the
mark is false when it found the queue full. -/
def Jobs.place (e : Env) (o : Origin) (i : Nat) (a : Action) (j : Jobs) : Jobs × Bool :=
  match (lastSegment j.queue).find? (fun x => x.isFor i) with
  | some (.cmd _ old was) =>
      if a == .query then (j.tellOrigin e o i a .done, true)
      else if was == .guard then
        match j.join (.fence false) with
        | (j, true) => j.join (.cmd i a o)
        | (j, false) => (j, false)
      else
        let j := { j with queue := replaceLast i (.cmd i a o) j.queue }
        let j :=
          if old == .query then j.tellOrigin e was i old .done
          else if was.same o then j else j.cancel e was i old
        (j.restAfter e (.cmd i old was), true)
  | _ => j.join (.cmd i a o)

/-- A command placed, with what queuing an OFF does. -/
def Jobs.enqueue (e : Env) (o : Origin) (i : Nat) (a : Action) (j : Jobs) : Jobs × Bool :=
  match j.place e o i a with
  | (j, true) => (j.afterQueued e i a, true)
  | (j, false) => (j, false)

/-- R145: an ALLOTMENT OFF that finds the queue full has the non-guard item at the tail removed and is taken again. -/
def Jobs.enqueueEvicting (e : Env) (i : Nat) (a : Action) : Nat → Jobs → Jobs × Bool
  | 0, j => j.enqueue e .allotment i a
  | n + 1, j =>
      match j.enqueue e .allotment i a with
      | (j', true) => (j', true)
      | (_, false) => Jobs.enqueueEvicting e i a n (j.evictTail e)

/-! ## Checks (R66) -/

/-- R66 item 3: the guard check of a pump SWITCH on and an inlet POSITION open. -/
def Jobs.guardCheck (e : Env) (i : Nat) (a : Action) (j : Jobs) : Option Reason :=
  let k := (e.set.act i).kind
  if (k == .pump && a == .switch true) || (k == .valveInlet && a == .position true) then
    if j.guard.latch then some .tripLatched
    else if j.guard.band == .highHigh then some .inhibitOverflow else none
  else none

/-- R66 item 4: the rest check of a pump SWITCH on. -/
def Jobs.restCheck (e : Env) (i : Nat) (a : Action) (j : Jobs) : Option Reason :=
  if (e.set.act i).kind == .pump && a == .switch true && (j.act i).rest.isSome then some .resting else none

/-- R66 items 3 and 4, in their order. -/
def Jobs.checks (e : Env) (i : Nat) (a : Action) (j : Jobs) : Option Reason :=
  match j.guardCheck e i a with
  | some r => some r
  | none => j.restCheck e i a

/-- How the taking of one command of a request went. -/
inductive Taken where
  | queued | parked | refused | notIssued | full
  deriving DecidableEq, Repr

/-- R68: a refusal with QUEUE_FULL raises QUEUE_FULL. The spec does not say which notice is posted first; the condition's is,
and the refusal's follows (log 26). -/
def Jobs.refuseFull (e : Env) (o : Origin) (i : Nat) (a : Action) (j : Jobs) : Jobs :=
  (j.raise e .queueFull).refuse e o i a .queueFull

/-- R66, R79: one command of a non-guard request, other than an operator's, is taken. -/
def Jobs.take (e : Env) (o : Origin) (i : Nat) (a : Action) (j : Jobs) : Jobs × Taken :=
  if (e.set.act i).manual then (j.tellOrigin e o i a .notIssued, .notIssued)
  else if (j.act i).hold.isSome && o.parks then
    ((j.updateAct i (fun r => { r with parked := some (a, o) })).tellOrigin e o i a .parked, .parked)
  else
    match j.checks e i a with
    | some r => (j.refuse e o i a r, .refused)
    | none =>
        match (if o == .allotment then Jobs.enqueueEvicting e i a Config.queueMax j else j.enqueue e o i a) with
        | (j, true) => (j, .queued)
        | (j, false) => (j.refuseFull e o i a, .full)

/-- What a request asks for: commands, and fences between them (section 4.2). -/
inductive Ask where
  | cmd (idx : Nat) (action : Action)
  | fence
  deriving DecidableEq, Repr

/-- R68: the remaining items of a request that met a full queue; a fence ends without a result of its own (log 9). -/
def Jobs.refuseRest (e : Env) (o : Origin) : List Ask → Jobs → Jobs
  | [], j => j
  | .cmd i a :: rest, j => Jobs.refuseRest e o rest (j.refuse e o i a .queueFull)
  | .fence :: rest, j => Jobs.refuseRest e o rest j

/-- R66, R68: a non-guard request is taken item by item, in order. -/
def Jobs.request (e : Env) (o : Origin) : List Ask → Jobs → Jobs
  | [], j => j
  | .cmd i a :: rest, j =>
      match j.take e o i a with
      | (j, .full) => Jobs.refuseRest e o rest j
      | (j, _) => Jobs.request e o rest j
  | .fence :: rest, j =>
      match j.join (.fence false) with
      | (j, true) => Jobs.request e o rest (j.fenceTest e)
      | (j, false) => Jobs.refuseRest e o rest (j.raise e .queueFull)

/-! ## Operator hold (R79) -/

/-- How an operator hold ends, with its code (spec/01 R20). -/
inductive HoldEnd where
  | release | guard | expiry
  deriving DecidableEq, Repr

/-- The code of a hold end cause. -/
def HoldEnd.code : HoldEnd → Nat
  | .release => 1
  | .guard => 2
  | .expiry => 3

/-- The start or end of a hold is told: of a pump or the inlet valve to the Fill controller (R90), of a heater to the
Frost unit (R122). -/
def Jobs.tellHold (e : Env) (i : Nat) (start : Bool) (j : Jobs) : Jobs :=
  match (e.set.act i).kind with
  | .pump => j.post .fillEval
  | .valveInlet => j.post .fillEval
  | .valveDrain => j
  | .heater => j.post (.frostHold i start)

/-- R79: an operator hold starts, or starts again. -/
def Jobs.startHold (e : Env) (i : Nat) (j : Jobs) : Jobs :=
  (j.updateAct i (fun a =>
    { a with hold := some ⟨e.clock.tow, e.now + e.set.general.operatorHoldLimit⟩ })).tellHold e i true

/-- R79: an operator hold ends; the parked request is taken as a new one, or cancelled when the guard ends the hold. The spec
does not order the HOLD_ENDED notice and the notice of the parked request's own end; HOLD_ENDED is posted first (log 26). -/
def Jobs.endHold (e : Env) (cause : HoldEnd) (i : Nat) (j : Jobs) : Jobs :=
  if (j.act i).hold.isNone then j
  else
    let parked := (j.act i).parked
    let j := (j.updateAct i (fun a => { a with hold := none, parked := none })).notice e (.holdEnded i cause.code)
    let j := j.tellHold e i false
    match parked with
    | none => j
    | some (a, o) => if cause == .guard then j.cancel e o i a else (j.take e o i a).1

/-! ## Guard groups (R69, R70) -/

/-- R69: every unsent command for an actuator of the group is removed, a non-guard one with CANCELLED to its origin, and
its operator hold ends. A removal makes the test of the leading fence (R71) and that of QUEUE_FULL (R68). The spec does not
say whether the commanded state between a group's removals and its placement counts; here the rest timer's test of R65 reads
it, and the discord marks and the tellings of `observe` see only the state after the whole group (log 29). -/
def Jobs.clearFor (e : Env) (i : Nat) (j : Jobs) : Jobs :=
  let gone := j.queue.filter (fun x => x.isFor i)
  let j := { j with queue := j.queue.filter (fun x => !x.isFor i) }
  let j := gone.foldl (fun j x => if x.isGuard then j else j.removed e x) j
  (if gone.isEmpty then j else j.itemsLeft e).endHold e .guard i

/-- R69: where two guard fences stand next to each other, one is removed. -/
def joinFences : List QueueItem → List QueueItem
  | .fence true :: .fence true :: rest => joinFences (.fence true :: rest)
  | x :: rest => x :: joinFences rest
  | [] => []

/-- The queue item of an item of a guard group. -/
def guardItem : Ask → QueueItem
  | .cmd i a => .cmd i a .guard
  | .fence => .fence true

/-- R69: place a group directly behind the last guard item. -/
def placeGroup (group : List Ask) (q : List QueueItem) : List QueueItem :=
  joinFences (q.takeWhile QueueItem.isGuard ++ group.map guardItem) ++ q.dropWhile QueueItem.isGuard

/-- R65: what queuing each OFF of a group does. -/
def Jobs.groupQueued (e : Env) (group : List Ask) (j : Jobs) : Jobs :=
  group.foldl (fun j x => match x with | .cmd i a => j.afterQueued e i a | .fence => j) j

/-- R69: the commands of a group are cleared for, one actuator after the other. -/
def Jobs.clearForAll (e : Env) (group : List Ask) (j : Jobs) : Jobs :=
  group.foldl (fun j x => match x with | .cmd i _ => j.clearFor e i | .fence => j) j

/-- R69, R70: a guard group is taken whole. A group with no item is not queued (R109). -/
def Jobs.guardGroup (e : Env) (group : List Ask) (j : Jobs) : Jobs :=
  if group.isEmpty then j
  else
    let j := j.clearForAll e group
    let j := { j with queue := placeGroup group j.queue }
    let j := Jobs.evict e j.queue.length j
    (j.groupQueued e group).itemsLeft e

/-! ## Issue (R71, R72) -/

/-- R71: the first ready command: in the first segment, its actuator not in flight, fewer than 4 in flight. -/
def Jobs.ready (j : Jobs) : Option (Nat × Action × Origin) :=
  if Config.flightMax ≤ j.flight.length then none
  else (j.queue.takeWhile (fun x => !x.isFence)).findSome? (fun x =>
    match x with
    | .cmd i a o => if j.inFlight i then none else some (i, a, o)
    | .fence _ => none)

/-- R71, R72, R62: the send of a command begins. -/
def Jobs.issue (e : Env) (i : Nat) (a : Action) (o : Origin) (j : Jobs) : Jobs :=
  let j :=
    { j with
      queue := j.queue.erase (.cmd i a o)
      flight := j.flight ++ [Flight.mk i a o false (e.now + e.set.general.ackTimeout)] }
  let j := j.updateAct i (fun r => { r with settled := a.commanded.getD r.settled })
  (j.count (fun c => { c with issued9 := c.issued9 + 1#32 })).itemsLeft e

/-- The In-Flight Table entry of an actuator. -/
def Jobs.flightOf (j : Jobs) (i : Nat) : Option Flight := j.flight.find? (fun f => f.idx == i)

/-- An entry leaves the In-Flight Table with a result for its origin; the fence test follows (R71). The result is told before
the evaluations that a change of the reported state starts (log 26). -/
def Jobs.endFlight (e : Env) (f : Flight) (r : CmdResult) (j : Jobs) : Jobs :=
  ({ j with flight := j.flight.filter (fun g => g.idx != f.idx) }.fenceTest e).tellOrigin e f.origin f.idx f.action r

/-! ## Reported states (R63, R73 to R77) -/

/-- R73: ACTUATOR_LOST is cleared when no in-use entry is UNRESPONSIVE. -/
def Jobs.lostTest (e : Env) (j : Jobs) : Jobs :=
  if (List.range Config.actuatorCount).any (fun i => e.set.actInUse i && (j.act i).resp == .unresponsive) then j
  else j.clear e .actuatorLost

/-- R63: a reported state is set and the actuator is RESPONSIVE; if it was UNRESPONSIVE, the test of R73 is made. The
duty is read when the state is DUTY; `units` is absent where the cell carries none. -/
def Jobs.setReported (e : Env) (i : Nat) (code : StateCode) (duty : Nat) (units : Option Nat) (j : Jobs) : Jobs :=
  let was := (j.act i).resp
  let j := j.updateAct i (fun a =>
    { a with reported := ⟨code, if code == .duty then duty else 0, units.getD a.reported.units⟩, resp := .responsive })
  if was == .unresponsive then j.lostTest e else j

/-- Set an actuator's fault (R64). -/
def Jobs.setFault (i : Nat) (f : ActFault) (j : Jobs) : Jobs := j.updateAct i (fun a => { a with fault := f })

/-- R64: a JAMMED fault returns to NONE. -/
def Jobs.unjam (i : Nat) (j : Jobs) : Jobs :=
  if (j.act i).fault == .jammed then j.setFault i .none else j

/-- R77: the jobs for an actuator's kind are told of its discord. -/
def Jobs.tellDiscord (e : Env) (i : Nat) (j : Jobs) : Jobs :=
  match (e.set.act i).kind with
  | .pump => j.tell [.fillDiscord i, .guardEval]
  | .valveInlet => j.tell [.fillDiscord i, .guardEval]
  | .valveDrain => j.post .guardEval
  | .heater => j.post (.frostDiscord i)

/-- R75, R77: a status report, with the discord test of an AUTO actuator that has no In-Flight Table entry. -/
def Jobs.statusReport (e : Env) (i : Nat) (code : StateCode) (duty : Nat) (units : Option Nat) (j : Jobs) : Jobs :=
  let j := j.setReported e i code duty units
  if (e.set.act i).manual || j.inFlight i || agrees (j.commanded i) (j.act i).reported then j
  else ((j.updateAct i (fun a => { a with discord := true })).raise e .actuatorDiscord).tellDiscord e i

/-- R77: a mark is cleared when the reported and commanded states agree again, and ACTUATOR_DISCORD with the last. -/
def Jobs.discordTest (e : Env) (j : Jobs) : Jobs :=
  let j := (List.range Config.actuatorCount).foldl (fun j i =>
    if (j.act i).discord && agrees (j.commanded i) (j.act i).reported then
      j.updateAct i (fun a => { a with discord := false }) else j) j
  if (List.range Config.actuatorCount).any (fun i => e.set.actInUse i && (j.act i).discord) then j
  else j.clear e .actuatorDiscord

/-- The position a POSITION command asks for, as a state code. -/
def asked (opened : Bool) : StateCode := if opened then .opened else .closed

/-- R73: the answered state ends or advances the entry. -/
def Jobs.answered (e : Env) (f : Flight) (code : StateCode) (duty : Nat) (j : Jobs) : Jobs :=
  match f.action with
  | .query => j.endFlight e f .done
  | .switch on => j.endFlight e f (if code == (if on then .on else .off) then .done else .failed)
  | .duty d =>
      j.endFlight e f (if (code == .duty && duty == d) || (code == .off && d == 0) then .done else .failed)
  | .position opened =>
      if code == asked opened then (j.unjam f.idx).endFlight e f .done
      else if code == .moving then
        { j with flight := j.flight.map (fun g =>
            if g.idx == f.idx then { g with travelling := true, timer := e.now + e.set.general.valveTravel } else g) }
      else if code == .jammed then (j.setFault f.idx .jammed).endFlight e f .failed
      else j.endFlight e f .failed

/-- R73, R75: an ANSWER item from the head of actuator `i`; a state code above 7 is skipped (R63). -/
def Jobs.ackItem (e : Env) (i : Nat) (s : Slot) (j : Jobs) : Jobs :=
  match stateCodeOf s.field2 with
  | none => j
  | some code =>
      match j.flightOf i with
      | some f =>
          if !f.travelling && f.action.code == s.field1 then
            (j.setReported e i code s.field3 none).answered e f code s.field3
          else j.statusReport e i code s.field3 none
      | none => j.statusReport e i code s.field3 none

/-- R76: a STATUS for a valve whose entry is a POSITION. -/
def Jobs.positionStatus (e : Env) (f : Flight) (opened : Bool) (code : StateCode) (j : Jobs) : Jobs :=
  if code == asked opened then (j.unjam f.idx).endFlight e f .done
  else if code == .jammed then (j.setFault f.idx .jammed).endFlight e f .failed
  else j

/-- R63, R75, R76: a STATE item from the head of actuator `i`; a heater's goes on to the Frost unit. -/
def Jobs.statusItem (e : Env) (i : Nat) (s : Slot) (j : Jobs) : Jobs :=
  match stateCodeOf s.field1 with
  | none => j
  | some code =>
      let heater := (e.set.act i).kind == .heater
      let units := if heater then some s.field3 else none
      let j :=
        match j.flightOf i with
        | some f =>
            match f.action with
            | .position opened => (j.setReported e i code s.field2 units).positionStatus e f opened code
            | _ => j.statusReport e i code s.field2 units
        | none => j.statusReport e i code s.field2 units
      if heater then j.post (.frostStatus i s.field3) else j

/-- R74: the timer of an entry in AWAITING_ACK expires. -/
def Jobs.ackTimeout (e : Env) (i : Nat) (j : Jobs) : Jobs :=
  match j.flightOf i with
  | none => j
  | some f =>
      if f.travelling then j
      else
        (((j.count (fun c => { c with ackTimeouts10 := c.ackTimeouts10 + 1#32 })).updateAct i
          (fun a => { a with resp := .unresponsive })).raise e .actuatorLost).endFlight e f .timedOut

/-- R74: the timer of an entry in TRAVELLING expires. -/
def Jobs.travelTimeout (e : Env) (i : Nat) (j : Jobs) : Jobs :=
  match j.flightOf i with
  | none => j
  | some f =>
      if f.travelling then
        (j.updateAct i (fun a => { a with reported := ⟨.jammed, 0, a.reported.units⟩, fault := .jammed })).endFlight e f
          .timedOut
      else j

/-- R65: a rest timer expires; the Fill controller and the Power allotment are told. -/
def Jobs.restExpiry (i : Nat) (j : Jobs) : Jobs :=
  if (j.act i).rest.isSome then
    (j.updateAct i (fun a => { a with rest := none })).tell [.fillEval, .pass]
  else j

/-- R79: a hold timer expires. -/
def Jobs.holdExpiry (e : Env) (i : Nat) (j : Jobs) : Jobs := j.endHold e .expiry i

/-! ## Resets and entries (R61, R80, R81) -/

/-- R61: a runtime record after a restart. -/
def ActRuntime.restart (a : ActRuntime) : ActRuntime :=
  { ActRuntime.powerOn with runMinutes := a.runMinutes, runSeconds := a.runSeconds }

/-- R80: one QUERY with origin START for each in-use AUTO entry, in index order, as one request. -/
def startQueries (s : Settings) : List Ask :=
  ((List.range Config.actuatorCount).filter (fun i => s.actInUse i && !(s.act i).manual)).map (fun i => .cmd i .query)

/-- R63: one second of run time of every pump reported ON. -/
def Jobs.runSecond (e : Env) (j : Jobs) : Jobs :=
  (List.range Config.actuatorCount).foldl (fun j i =>
    if e.set.actInUse i && (e.set.act i).kind == .pump && (j.act i).reported.code == .on then
      j.updateAct i (fun a =>
        if a.runSeconds ≥ 59 then { a with runSeconds := 0, runMinutes := a.runMinutes + 1#32 }
        else { a with runSeconds := a.runSeconds + 1 })
    else j) j

end Sys2Proof.Machine
end

