-- ==== Sys2Proof/Machine/Tariff.lean ====
section
/-!
DEFINITION. The Tariff clock (spec/05 sections 5.1 and 5.2): the time of week, the clock state and the Tariff State.
-/

namespace Sys2Proof.Machine

/-! ## The Tariff State (R85 to R87) -/

/-- R85: the minute stands in the span of the window. -/
def TariffEntry.holds (w : TariffEntry) (m : Nat) : Bool :=
  w.used && (if w.start < w.stop then decide (w.start ≤ m ∧ m < w.stop)
    else decide (w.stop < w.start) && decide (w.start ≤ m ∨ m < w.stop))

/-- R86: the derivation of the Tariff State. -/
def Clock.derived (s : Settings) (c : Clock) : TariffState :=
  let dear : TariffState := { band := .dear, window := none, cap := s.defaultCap, target := none }
  if c.state == .unset then dear
  else
    match firstWhere (fun w => w.holds c.tow.minute) s.tariff with
    | none => dear
    | some i =>
        let w := s.tariff.getD i .factory
        { band := w.band, window := some ⟨i, w.start, w.stop⟩, cap := w.cap, target := some w.target }

/-- A derivation is made (R86). -/
def Env.derive (e : Env) : Env := { e with clock := { e.clock with tariff := e.clock.derived e.set } }

/-- R87: a Tariff State change goes to the Fill controller and the Power allotment, in no set order. -/
def Jobs.tariffChange (before after : Env) (j : Jobs) : Jobs :=
  if before.clock.tariff = after.clock.tariff then j else j.tell [.fillEval, .cap]

/-! ## The clock (R82 to R84) -/

/-- R82: the next second; the mark says whether the step is a minute boundary. -/
def TimeOfWeek.next (t : TimeOfWeek) : TimeOfWeek × Bool :=
  if t.second < 59 then (⟨t.minute, t.second + 1⟩, false)
  else (⟨if t.minute + 1 < Config.weekMinutes then t.minute + 1 else 0, 0⟩, true)

/-- The second of the week. -/
def TimeOfWeek.seconds (t : TimeOfWeek) : Nat := t.minute * 60 + t.second

/-- R84: the jump, the shorter way around the week between two times. -/
def jump (old new : TimeOfWeek) : Nat :=
  let week := Config.weekMinutes * 60
  let ahead := (new.seconds + week - old.seconds) % week
  min ahead (week - ahead)

/-- R84: the time of a TIME item, absent when it is out of range. -/
def timeOfItem (s : Slot) : Option TimeOfWeek :=
  let minute := s.field1 * 256 + s.field2
  if minute < Config.weekMinutes ∧ s.field3 < 60 then some ⟨minute, s.field3⟩ else none

/-- R83, R84: the clock set by a valid TIME item, and the Tariff State derived. -/
def Env.setTime (t : TimeOfWeek) (e : Env) : Env :=
  { e with clock :=
    { e.clock with tow := t, state := .synced, stale := e.after (e.set.general.clockStaleHours * 3600) } }.derive

/-- R84: a jump of more than 120 s counts, unless the clock was UNSET (counter 13). -/
def Jobs.countJump (c : Clock) (t : TimeOfWeek) (j : Jobs) : Jobs :=
  if c.state != .unset && decide (120 < jump c.tow t) then
    j.count (fun n => { n with clockJumps13 := n.clockJumps13 + 1#32 })
  else j

/-- R83: what the Condition unit is told when a CLOCK cell has been taken; each clear changes nothing while its kind is
inactive. -/
def Jobs.clockTaken (e : Env) (j : Jobs) : Jobs := (j.clear e .clockUnset).clear e .clockStale

end Sys2Proof.Machine
end

