-- ==== Sys2Proof/Machine/Power.lean ====
section
/-!
DEFINITION. The Power allotment (spec/08) and the operator path (spec/04 R78), which takes a pass inside its own step.
-/

namespace Sys2Proof.Machine

/-! ## Claims (R138 to R140) -/

/-- The more urgent of two classes: the lower code other than NONE (R139). -/
def ClaimClass.moreUrgent (a b : ClaimClass) : ClaimClass :=
  if a == .none then b else if b == .none then a else if a.code ≤ b.code then a else b

/-- R139: the class and the requested units of pump n, derived from its two parts. -/
def Jobs.derivePump (e : Env) (n : Nat) (j : Jobs) : ClaimClass × Nat :=
  match e.set.pump n with
  | none => (.none, 0)
  | some i =>
      if (j.act i).rest.isSome then (.none, 0)
      else
        let c := j.claim (n - 1)
        let cls := c.fillClass.moreUrgent (if c.operator then .committed else .none)
        (cls, if cls == .none then 0 else (e.set.act i).rated)

/-- Take the derived class and units of pump n into its record. -/
def Jobs.refreshPump (e : Env) (n : Nat) (j : Jobs) : Jobs :=
  j.updateClaim (n - 1) (fun c => { c with cls := (j.derivePump e n).1, requested := (j.derivePump e n).2 })

/-- R140: a part of pump n has been posted; a pass follows when it changes the derived class or units. -/
def Jobs.pumpPosted (e : Env) (n : Nat) (j : Jobs) : Jobs :=
  if j.derivePump e n = ((j.claim (n - 1)).cls, (j.claim (n - 1)).requested) then j
  else (j.refreshPump e n).startPass

/-- R95, R140: the Fill controller posts its part for pump n. -/
def Jobs.postFill (e : Env) (n : Nat) (cls : ClaimClass) (units : Nat) (j : Jobs) : Jobs :=
  (j.updateClaim (n - 1) (fun c => { c with fillClass := cls, fillUnits := units })).pumpPosted e n

/-- R140: the Frost unit posts the claim of zone `z`. -/
def Jobs.postZone (z : Nat) (cls : ClaimClass) (units : Nat) (j : Jobs) : Jobs :=
  let c := j.claim (z + 2)
  if c.postedClass = cls ∧ c.postedUnits = units then j
  else
    (j.updateClaim (z + 2) (fun c =>
      { c with postedClass := cls, postedUnits := units, cls := cls, requested := units })).startPass

/-! ## The pass (R141, R142) -/

/-- The consumers in the order of a step that names zones first. -/
def zonesThenPumps : List Nat := [2, 3, 4, 5, 0, 1]

/-- The consumers in the order of a step that names pumps first; a zone record with a class of the step is taken too, in
the zone order. -/
def pumpsThenZones : List Nat := [0, 1, 2, 3, 4, 5]

/-- The five steps of the walk: which claims a step takes, and its consumers in order (R142). -/
def passSteps : List ((Claim → Bool) × List Nat) :=
  [(fun c => c.cls == .critical, zonesThenPumps),
   (fun c => c.cls == .committed, pumpsThenZones),
   (fun c => c.cls == .opportunistic && c.incumbent, pumpsThenZones),
   (fun c => c.cls == .normal, zonesThenPumps),
   (fun c => c.cls == .opportunistic && !c.incumbent, pumpsThenZones)]

/-- R142: the grant of a claim on its turn, with the units that remain. The spec does not say what a zone's standing claim is
granted that a write has left without a heater, and so without rated units to divide by: the duty counts as 0, and the grant
is 0 (log 29). -/
def grantOf (s : Settings) (consumer : Nat) (c : Claim) (remaining : Nat) : Nat :=
  if consumer < 2 then (if c.requested ≤ remaining then c.requested else 0)
  else
    let g := min c.requested remaining
    if g * 100 / s.zoneRated (consumer - 2) < Config.dutyMin then 0 else g

/-- One turn of the walk: the claims, and the units that remain. -/
def grantTurn (s : Settings) (takes : Claim → Bool) (w : List Claim × Nat) (consumer : Nat) : List Claim × Nat :=
  let c := w.1.getD consumer .powerOn
  if takes c then
    let g := grantOf s consumer c w.2
    (updateAt (fun c => { c with granted := g }) consumer w.1, w.2 - g)
  else w

/-- R142: the walk over the five steps, from the cap. -/
def walk (s : Settings) (cap : Nat) (claims : List Claim) : List Claim × Nat :=
  passSteps.foldl (fun w step => step.2.foldl (grantTurn s step.1) w)
    (claims.map (fun c => { c with granted := 0 }), cap)

/-- R144: the pumps commanded ON without their full grant. The spec does not say whether a pump that a HEADS write has made
absent while its entry is commanded ON is stopped: no OFF is asked of it (log 29). -/
def Jobs.overdrawn (e : Env) (n : Nat) (j : Jobs) : Option Nat :=
  match e.set.pump n with
  | none => none
  | some i => if j.commanded i == .on && decide ((j.claim (n - 1)).granted < (e.set.act i).rated) then some i else none

/-- R144: SWITCH off for pump n, asked with origin ALLOTMENT when it runs without its grant. -/
def Jobs.stopOverdrawn (e : Env) (n : Nat) (j : Jobs) : Jobs :=
  match j.overdrawn e n with
  | none => j
  | some i => j.request e .allotment [.cmd i (.switch false)]

/-- R146: a CRITICAL claim is short. -/
def Claim.short (c : Claim) : Bool := c.cls == .critical && decide (c.granted < c.requested)

/-- R143: what each consumer whose grant changed is told. -/
def grantTold (before after : List Claim) : List Event :=
  let changed := fun c => (before.getD c .powerOn).granted != (after.getD c .powerOn).granted
  (if changed 0 || changed 1 then [.fillEval] else [])
    ++ ([0, 1, 2, 3].filter (fun z => changed (z + 2))).map (fun z =>
      .frostGrant z (after.getD (z + 2) .powerOn).granted)

/-- R141, R142: the pumps' records are derived, and every grant is set by the walk. -/
def Jobs.grantAll (e : Env) (j : Jobs) : Jobs :=
  let j := (j.refreshPump e 1).refreshPump e 2
  { j with power := { j.power with claims := (walk e.set j.power.cap j.power.claims).1 } }

/-- R143, R160: a change of the granted total is handed to the Report unit. -/
def Jobs.tellTotal (e : Env) (before : Nat) (j : Jobs) : Jobs :=
  if j.power.total = before then j else j.tele' (fun v t => t.quantityChanged v 14) e

/-- R141 to R146: an allotment pass, taken whole: the records derived, the grants set, the stops asked, the consumers
told, the granted total handed on and POWER_SHORT tested. The spec does not order the OFFs of two pumps; pump 1's is asked first
(log 26). -/
def Jobs.pass (e : Env) (j : Jobs) : Jobs :=
  let k := j.grantAll e
  let told := grantTold j.power.claims k.power.claims
  let short := k.power.claims.any Claim.short
  (((((k.stopOverdrawn e 1).stopOverdrawn e 2).tell told).tellTotal e j.power.total).keep e .powerShort short)

/-- R137: the cap in force. -/
def Env.cap (e : Env) : Nat := min e.set.siteLimit e.clock.tariff.cap

/-- R137: the cap is derived afresh; a change of it starts a pass. -/
def Jobs.deriveCap (e : Env) (j : Jobs) : Jobs :=
  if j.power.cap = e.cap then j
  else ({ j with power := { j.power with cap := e.cap } }).startPass

/-- R138: the incumbent flag of pump n follows its commanded state; a change of the flag starts a pass. The spec does not say
what the flag of an absent pump is whose entry stays commanded ON: it is clear (log 29). -/
def Jobs.followIncumbent (e : Env) (n : Nat) (j : Jobs) : Jobs :=
  let on := match e.set.pump n with | none => false | some i => j.commanded i == .on
  if (j.claim (n - 1)).incumbent = on then j
  else (j.updateClaim (n - 1) (fun c => { c with incumbent := on })).startPass

/-- Both incumbent flags. -/
def Jobs.incumbents (e : Env) (j : Jobs) : Jobs := (j.followIncumbent e 1).followIncumbent e 2

/-- R144: a result for a command with origin ALLOTMENT. -/
def Jobs.powerResult (e : Env) (i : Nat) (r : CmdResult) (j : Jobs) : Jobs :=
  if r = .failed ∨ r = .timedOut then
    match e.set.pumpNumber i with
    | none => j
    | some n =>
        if (j.claim (n - 1)).granted < (e.set.act i).rated then j.request e .allotment [.cmd i (.switch false)] else j
  else j

/-! ## The operator path (R78, R139) -/

/-- A result for a command with origin OPERATOR: a SWITCH on that ends CANCELLED, FAILED or TIMED_OUT withdraws the
operator claim (R78). -/
def Jobs.operatorResult (e : Env) (i : Nat) (a : Action) (r : CmdResult) (j : Jobs) : Jobs :=
  if a = .switch true ∧ (r = .cancelled ∨ r = .failed ∨ r = .timedOut) then j.withdrawOperator e i else j

/-- The action of an operator item; a DUTY above 100 is clamped (R78). RELEASE asks for none and is taken before. -/
def OperatorItem.action : OperatorItem → Action
  | .switch field => .switch (field == 1)
  | .position field => .position (field == 1)
  | .duty d => .duty (min d 100)
  | .query => .query
  | .release => .query

/-- R78 check 4: the action fits the kind, and a SWITCH or POSITION carries 0 or 1. -/
def OperatorItem.fits (k : ActKind) : OperatorItem → Bool
  | .switch field => k == .pump && decide (field ≤ 1)
  | .position field => (k == .valveInlet || k == .valveDrain) && decide (field ≤ 1)
  | .duty _ => k == .heater
  | .query => true
  | .release => true

/-- R78: the four checks of an operator item, in their order. -/
def Jobs.operatorChecks (e : Env) (i : Nat) (x : OperatorItem) (j : Jobs) : Option Reason :=
  if (e.set.act i).manual then some .manual
  else
    match j.checks e i x.action with
    | some r => some r
    | none => if x.fits (e.set.act i).kind then none else some .badAction

/-- R78: the operator claim of pump n posted, and the pass it starts taken before the item goes on. -/
def Jobs.postOperator (e : Env) (n : Nat) (j : Jobs) : Jobs :=
  let j := j.updateClaim (n - 1) (fun c => { c with operator := true })
  if j.derivePump e n = ((j.claim (n - 1)).cls, (j.claim (n - 1)).requested) then j else j.pass e

/-- R78: an item that passed its checks is queued; accepted, it puts the actuator under operator hold, a QUERY apart. -/
def Jobs.operatorQueue (e : Env) (i : Nat) (x : OperatorItem) (j : Jobs) : Jobs :=
  match j.enqueue e .operator i x.action with
  | (j, true) => if x.action = .query then j else j.startHold e i
  | (j, false) =>
      let j := j.refuseFull e .operator i x.action
      if x.action = .switch true then j.withdrawOperator e i else j

/-- R78, R139: a pump SWITCH on posts the operator claim and needs the full grant. -/
def Jobs.operatorStart (e : Env) (i : Nat) (x : OperatorItem) (j : Jobs) : Jobs :=
  match e.set.pumpNumber i with
  | none => j.refuse e .operator i x.action .noPower
  | some n =>
      let j := j.postOperator e n
      if (j.claim (n - 1)).granted < (e.set.act i).rated then
        (j.refuse e .operator i x.action .noPower).withdrawOperator e i
      else j.operatorQueue e i x

/-- R78: one command item of an intercepted COMMAND cell. -/
def Jobs.operatorItem (e : Env) (i : Nat) (x : OperatorItem) (j : Jobs) : Jobs :=
  if x = .release then j.endHold e .release i
  else
    match j.operatorChecks e i x with
    | some r => j.refuse e .operator i x.action r
    | none => if x.action = .switch true then j.operatorStart e i x else j.operatorQueue e i x

/-- R78: a FENCE cell queues one fence at the tail, or is dropped, counted, and QUEUE_FULL raised. -/
def Jobs.operatorFence (e : Env) (j : Jobs) : Jobs :=
  match j.join (.fence false) with
  | (j, true) => j.fenceTest e
  | (j, false) => j.countRefusal.raise e .queueFull

end Sys2Proof.Machine
end

