-- ==== Sys2Proof/Machine/Fill.lean ====
section
/-!
DEFINITION. The Fill controller (spec/05 sections 5.3 and 5.4): the Fill Plan, its evaluation, the runs of the pumps,
proving, pump faults and the learned flow.
-/

namespace Sys2Proof.Machine

/-- Change the Fill Plan. -/
def Jobs.plan (f : FillPlan → FillPlan) (j : Jobs) : Jobs := { j with fill := f j.fill }

/-! ## Pumps (R96) -/

/-- R96: pump n is a candidate. -/
def Jobs.candidate (e : Env) (n : Nat) (j : Jobs) : Bool :=
  match e.set.pump n with
  | none => false
  | some i => !(e.set.act i).manual && (j.act i).fault == .none

/-- R96: pump n is startable. -/
def Jobs.startable (e : Env) (n : Nat) (j : Jobs) : Bool :=
  j.candidate e n && (match e.set.pump n with | none => false | some i => (j.act i).rest.isNone)

/-- The run minutes of pump n. -/
def Jobs.pumpMinutes (e : Env) (n : Nat) (j : Jobs) : Nat :=
  match e.set.pump n with
  | none => 0
  | some i => (j.act i).runMinutes.toNat

/-- R96: the lead pump: that of the run going, or the startable pump with fewer run minutes. -/
def Jobs.chooseLead (e : Env) (j : Jobs) : Option Nat :=
  match j.running with
  | some n => some n
  | none =>
      if j.startable e 1 then
        if j.startable e 2 && decide (j.pumpMinutes e 2 < j.pumpMinutes e 1) then some 2 else some 1
      else if j.startable e 2 then some 2 else none

/-! ## Runs (R97, R98) -/

/-- The start-group commands of the Fill controller that have not ended: in flight, unsent, or with a result not yet
taken. -/
def Jobs.outstandingStarts (j : Jobs) : List (Nat × Action) :=
  let starts := fun (i : Nat) (a : Action) (o : Origin) =>
    if o == .fill && (a == .switch true || a == .position true) then some (i, a) else none
  j.flight.filterMap (fun f => starts f.idx f.action f.origin)
    ++ j.queue.filterMap (fun x => match x with | .cmd i a o => starts i a o | .fence _ => none)
    ++ j.work.filterMap (fun ev => match ev with | .fillResult i a _ => starts i a .fill | _ => none)

/-- R97: the start group for the pump at entry `i`. -/
def Jobs.startGroup (e : Env) (i : Nat) (j : Jobs) : List Ask :=
  match e.set.inlet with
  | none => [.cmd i (.switch true)]
  | some v =>
      if j.commanded v == .opened then [.cmd i (.switch true)]
      else [.cmd v (.position true), .fence, .cmd i (.switch true)]

/-- The commands of a request. -/
def Ask.command : Ask → Option (Nat × Action)
  | .cmd i a => some (i, a)
  | .fence => none

/-- R97: a run is started on pump n. -/
def Jobs.startRun (e : Env) (n : Nat) (j : Jobs) : Jobs :=
  match e.set.pump n with
  | none => j
  | some i =>
      let group := j.startGroup e i
      let stale := j.outstandingStarts
      let j := j.updateRun n (fun _ => { phase := .starting, metered := false, prove := none, dry := none })
      let j := j.plan (fun p => { p with group := group.filterMap Ask.command, stale := stale })
      j.request e .fill group

/-- The commanded state of the inlet valve is OPEN. -/
def Jobs.inletOpened (e : Env) (j : Jobs) : Option Nat :=
  match e.set.inlet with
  | none => none
  | some v => if j.commanded v == .opened then some v else none

/-- R98: the stop group for the pump at entry `i`; a pump that a HEADS write has made absent has no item in it (log 27). -/
def Jobs.stopGroup (e : Env) (i : Option Nat) (j : Jobs) : List Ask :=
  let off := match i with
    | none => []
    | some i => if j.commanded i == .on then [Ask.cmd i (.switch false)] else []
  let close := match j.inletOpened e with
    | none => []
    | some v => [Ask.cmd v (.position false)]
  off ++ (if off.isEmpty || close.isEmpty then [] else [Ask.fence]) ++ close

/-- The pump is under operator hold. -/
def Jobs.pumpHeld (e : Env) (n : Nat) (j : Jobs) : Bool :=
  match e.set.pump n with
  | none => false
  | some i => (j.act i).hold.isSome

/-- A stop group asks what it holds afresh: what of it R99 still owed is dropped. -/
def FillPlan.askedAfresh (i : Option Nat) (p : FillPlan) : FillPlan :=
  { p with owedOff := (match i with | none => p.owedOff | some i => p.owedOff.erase i), owedClose := false }

/-- R98: the run of pump n is ended; under an operator hold on the pump the stop group is not queued. An operator's SWITCH
off both makes the commanded state OFF and starts a hold: which of the two ends the run is not stated, and here the hold
does, so nothing is queued (log 27). -/
def Jobs.endRun (e : Env) (n : Nat) (j : Jobs) : Jobs :=
  let j := j.updateRun n (fun r => { r with phase := .stopped, prove := none, dry := none })
  if j.pumpHeld e n then j
  else (j.plan (FillPlan.askedAfresh (e.set.pump n))).request e .fill (j.stopGroup e (e.set.pump n))

/-- End the run that is going, if one is. -/
def Jobs.endRunning (e : Env) (j : Jobs) : Jobs :=
  match j.running with
  | none => j
  | some n => j.endRun e n

/-- A result for the start of the run's pump has been told and not yet taken: it, and not the commanded state, ends the
run (R99). -/
def Jobs.startAnswered (i : Nat) (j : Jobs) : Bool :=
  j.work.any (fun ev => match ev with | .fillResult k a _ => k == i && a == .switch true | _ => false)

/-- R98: the run ends when the commanded state of its pump has become OFF. R98 speaks of another origin's OFF; what becomes of
a new run whose unsent ON the Fill controller's own repeated OFF of R99 replaces (R68) is not stated, and here that OFF ends it
too (log 27). -/
def Jobs.fillCommanded (e : Env) (j : Jobs) : Jobs :=
  match j.running with
  | none => j
  | some n =>
      match e.set.pump n with
      | none => j
      | some i => if j.commanded i == .off && !j.startAnswered i then j.endRun e n else j

/-! ## The evaluation (R90 to R96) -/

/-- The window index and band of the Tariff State. -/
def TariffState.follows (t : TariffState) : Option (Nat × Band) := t.window.map (fun w => (w.index, t.band))

/-- The plan's window is CHEAP. -/
def FillPlan.cheap (p : FillPlan) : Bool :=
  match p.window with
  | some (_, band) => band == .cheap
  | none => false

/-- R91: the plan's window ends. -/
def Jobs.windowEnd (e : Env) (j : Jobs) : Jobs :=
  let short := j.fill.cheap && decide (e.set.general.restartDeficit < j.fill.deficit)
  let j := if short then (j.plan (fun p => { p with shortfall := true })).raise e .fillShortfall else j
  j.plan (fun p => { p with topped := false, committed := false })

/-- R91: the Tariff State's window starts for the plan. -/
def Jobs.windowStart (e : Env) (j : Jobs) : Jobs :=
  let j := j.plan (fun p => { p with window := e.clock.tariff.follows })
  if j.fill.cheap then (j.plan (fun p => { p with shortfall := false })).clear e .fillShortfall else j

/-- R91: the plan follows the Tariff State's window. -/
def Jobs.followWindow (e : Env) (j : Jobs) : Jobs :=
  if j.fill.window = e.clock.tariff.follows then j else (j.windowEnd e).windowStart e

/-- R85: the length of a window. -/
def Window.length (w : Window) : Nat := (w.stop + Config.weekMinutes - w.start) % Config.weekMinutes

/-- R92: the flow used for the lead pump. -/
def Jobs.flowUsed (e : Env) (lead : Option Nat) (j : Jobs) : Nat :=
  if 0 < j.fill.learned then j.fill.learned
  else match lead.bind e.set.pump with
    | none => 0
    | some i => (e.set.act i).nominalFlow

/-- R92: the minutes needed. -/
def minutesNeeded (deficit flow : Nat) : Nat :=
  if deficit = 0 then 0 else if flow = 0 then 65535 else min 65535 ((deficit + flow - 1) / flow)

/-- R92: the must-start minute of a window. -/
def mustStartMinute (w : Window) (needed margin : Nat) : Nat :=
  if w.length ≤ needed + margin then w.start
  else (w.stop + Config.weekMinutes - (needed + margin)) % Config.weekMinutes

/-- R94: the reserve mark after an evaluation. -/
def reserveMark (e : Env) (level : LevelRecord) (was : Bool) : Bool :=
  let g := e.set.general
  if level.fusion == .blind then was
  else if level.fill < g.reserveMm then true
  else if g.reserveMm + g.reserveHyst ≤ level.fill then false else was

/-- R92, R94, R96: the lead pump and the figures of the plan. -/
def Jobs.figure (e : Env) (j : Jobs) : Jobs :=
  let lead := j.chooseLead e
  let flow := j.flowUsed e lead
  let window := if j.fill.cheap then e.clock.tariff.window else none
  let target := if j.fill.cheap then e.clock.tariff.target else none
  let volume := target.map e.set.volumeAt
  let deficit := match volume with | none => 0 | some v => v - j.level.volume
  let needed := minutesNeeded deficit flow
  j.plan (fun p =>
    { p with
      lead := lead, flowUsed := flow, targetLevel := target, targetVolume := volume, deficit := deficit,
      needed := needed,
      remaining := window.map (fun w =>
        (w.stop + Config.weekMinutes - e.clock.tow.minute) % Config.weekMinutes),
      mustStart := window.map (fun w => mustStartMinute w needed e.set.general.fillMargin),
      reserve := reserveMark e j.level p.reserve })

/-- R92: the committed test. -/
def FillPlan.committedTest (margin : Nat) (p : FillPlan) : Bool :=
  match p.remaining with
  | none => false
  | some r => decide (r ≤ p.needed + margin)

/-- What a row of R93 calls for: a mode, or an intent that R93 turns into one. -/
inductive Choice where
  | mode (m : FillMode)
  | reserve | committed | opportunistic
  deriving DecidableEq, Repr

/-- R93: the first row that applies. -/
def Jobs.chooseRow (e : Env) (j : Jobs) : Choice :=
  let p := j.fill
  if j.level.fusion == .blind then .mode .blindHold
  else if j.guard.latch || j.guard.band == .highHigh || j.guard.band == .trip then .mode .held
  else if p.reserve then .reserve
  else if p.cheap && p.topped && decide (p.deficit ≤ e.set.general.restartDeficit) then .mode .topped
  else if p.cheap && p.deficit == 0 then .mode .topped
  else if p.cheap && (p.committed || p.committedTest e.set.general.fillMargin) then .committed
  else if p.cheap then .opportunistic
  else .mode .idle

/-- R93: the marks that the rows set and clear: the topped mark by rows 4 and 5, the committed mark by row 6. -/
def Jobs.markRow (e : Env) (c : Choice) (j : Jobs) : Jobs :=
  match c with
  | .mode .topped => j.plan (fun p => { p with topped := true })
  | .committed => j.plan (fun p =>
      { p with committed := true, topped := p.topped && decide (p.deficit ≤ e.set.general.restartDeficit) })
  | .opportunistic => j.plan (fun p =>
      { p with topped := p.topped && decide (p.deficit ≤ e.set.general.restartDeficit) })
  | _ => j

/-- R93: an intent is not carried out: the lead pump is absent, or held, or the inlet valve is held while no run is going,
or it is JAMMED. -/
def Jobs.intentHeld (e : Env) (j : Jobs) : Bool :=
  (match j.fill.lead with
    | none => true
    | some n => (e.set.pump n).isNone || j.pumpHeld e n)
  || (match e.set.inlet with
    | none => false
    | some v => (j.running.isNone && (j.act v).hold.isSome) || (j.act v).fault == .jammed)

/-- R93: the mode of a row. -/
def Jobs.chooseMode (e : Env) (c : Choice) (j : Jobs) : FillMode :=
  match c with
  | .mode m => m
  | .reserve => if j.intentHeld e then .held else .fillingReserve
  | .committed => if j.intentHeld e then .held else .fillingCommitted
  | .opportunistic =>
      if j.intentHeld e then .held else if j.running.isSome then .fillingOpp else .waiting

/-- R95: the class of the lead pump's fill claim in a mode. -/
def FillMode.claim : FillMode → ClaimClass
  | .fillingReserve => .critical
  | .fillingCommitted => .committed
  | .waiting => .opportunistic
  | .fillingOpp => .opportunistic
  | .idle => .none
  | .topped => .none
  | .held => .none
  | .blindHold => .none

/-- R95: the claims that the mode calls for: the lead pump's by its class with its rated units, the other pump's NONE. -/
def Jobs.postClaims (e : Env) (j : Jobs) : Jobs :=
  let cls := j.fill.mode.claim
  let post := fun (n : Nat) (j : Jobs) =>
    if j.fill.lead = some n ∧ cls ≠ .none then
      j.postFill e n cls (match e.set.pump n with | none => 0 | some i => (e.set.act i).rated)
    else j.postFill e n .none 0
  match j.fill.lead with
  | some 2 => post 2 (post 1 j)
  | _ => post 1 (post 2 j)

/-- R95: a run starts: the lead pump's grant equals its rated units, no run is going, and the mode waits for one. -/
def Jobs.startTest (e : Env) (j : Jobs) : Jobs :=
  match j.fill.lead with
  | none => j
  | some n =>
      match e.set.pump n with
      | none => j
      | some i =>
          if j.running.isNone && (j.claim (n - 1)).granted == (e.set.act i).rated
              && (j.fill.mode == .fillingReserve || j.fill.mode == .fillingCommitted || j.fill.mode == .waiting)
              && !j.fill.startBar.contains n then
            (j.plan (fun p => { p with mode := if p.mode == .waiting then .fillingOpp else p.mode })).startRun e n
          else j

/-- R99: the stop-group commands still to be asked again: the OFF of each pump that is still commanded ON, and the inlet CLOSE
while the inlet is still commanded OPEN. -/
def Jobs.stillOwed (e : Env) (j : Jobs) : List (Nat × Action) :=
  (j.fill.owedOff.filter (fun i => j.commanded i == .on)).map (fun i => (i, .switch false))
    ++ (if j.fill.owedClose then (j.inletOpened e).toList.map (fun v => (v, .position false)) else [])

/-- R99: what was refused with QUEUE_FULL is asked again, each alone, while no run is going; while one is, it stays owed. The
spec does not say where in an evaluation or in what order: it is asked after the start test, the pump OFFs before the inlet
CLOSE (log 26). -/
def Jobs.askOwed (e : Env) (j : Jobs) : Jobs :=
  let owed := j.stillOwed e
  if j.running.isSome then
    j.plan (fun p =>
      { p with owedOff := p.owedOff.filter (fun i => owed.contains (i, .switch false))
               owedClose := owed.any (fun x => x.2 == .position false) })
  else
    owed.foldl (fun j x => j.request e .fill [.cmd x.1 x.2])
      (j.plan (fun p => { p with owedOff := [], owedClose := false }))

/-- R96: the PUMP_FAIL test, on the row that the evaluation reached. -/
def Jobs.pumpFailTest (e : Env) (c : Choice) (j : Jobs) : Jobs :=
  let wanted := match c with | .mode _ => false | _ => true
  j.keep e .pumpFail (wanted && !j.candidate e 1 && !j.candidate e 2)

/-- R90: an evaluation. It first finds the run ended by an OFF of another origin (R98, R144). `again` is false at the
evaluation that a QUEUE_FULL refusal itself causes, which is no later one (R99). The Report unit learns of a change of the
mode by `observe`. -/
def Jobs.fillEvaluate (e : Env) (again : Bool) (j : Jobs) : Jobs :=
  let j := ((j.fillCommanded e).followWindow e).figure e
  let row := j.chooseRow e
  let j := j.markRow e row
  let mode := j.chooseMode e row
  let j := if mode.claim == .none then j.endRunning e else j
  let j := (j.plan (fun p => { p with mode := mode })).postClaims e
  let j := j.startTest e
  let j := if again then j.askOwed e else j
  (j.pumpFailTest e row).keep e .reserveLow j.fill.reserve

/-! ## Results of FILL commands (R99, R100) -/

/-- R100: the pump's ON has completed: proving begins. -/
def Jobs.beginProving (e : Env) (n : Nat) (j : Jobs) : Jobs :=
  if (e.set.knownKind .flowIn).isSome then
    j.updateRun n (fun r => { r with phase := .proving, metered := true, prove := e.after e.set.general.proveTime })
  else j.updateRun n (fun r => { r with phase := .proved, metered := false })

/-- The result ends a run that is STARTING (R99). -/
def CmdResult.endsStart : CmdResult → Bool
  | .refused _ => true
  | .notIssued => true
  | .failed => true
  | .timedOut => true
  | .cancelled => true
  | .done => false
  | .parked => false

/-- The result came from a head, or for want of its answer: the command had been issued. -/
def CmdResult.issued : CmdResult → Bool
  | .done => true
  | .failed => true
  | .timedOut => true
  | _ => false

/-- R99: the result of a start-group command of the run that is STARTING on pump n. A pump whose start met a full queue is
barred from another start in this settling (log 7). -/
def Jobs.startResult (e : Env) (n : Nat) (a : Action) (r : CmdResult) (j : Jobs) : Jobs :=
  if r.endsStart then
    (j.plan (fun p => { p with startBar := if r = .refused .queueFull then p.startBar ++ [n] else p.startBar })).endRun e n
  else if r = .done ∧ a = .switch true then j.beginProving e n else j

/-- R99: a result for an inlet OPEN or a pump ON: it belongs to a command of an earlier start group, and changes nothing,
or to the present one. -/
def Jobs.startsResult (e : Env) (i : Nat) (a : Action) (r : CmdResult) (j : Jobs) : Jobs :=
  let mine := j.fill.group.contains (i, a)
  let theirs := j.fill.stale.contains (i, a)
  if theirs && (r.issued || !mine) then j.plan (fun p => { p with stale := p.stale.erase (i, a) })
  else if mine && r != .parked then
    let j := j.plan (fun p => { p with group := p.group.erase (i, a) })
    match j.running with
    | none => j
    | some n => if (j.run n).phase = .starting then j.startResult e n a r else j
  else j

/-- R99: a result for a pump OFF or an inlet CLOSE with origin FILL. -/
def Jobs.stopsResult (e : Env) (i : Nat) (a : Action) (r : CmdResult) (j : Jobs) : Jobs :=
  if r = .refused .queueFull then
    if a = .switch false then j.plan (fun p => { p with owedOff := if p.owedOff.contains i then p.owedOff else p.owedOff ++ [i] })
    else j.plan (fun p => { p with owedClose := true })
  else if a = .switch false ∧ (r = .failed ∨ r = .timedOut) then j.request e .fill [.cmd i (.switch false)]
  else j

/-- R99: a result for a FILL command, and the evaluation it starts (R90). -/
def Jobs.fillResult (e : Env) (i : Nat) (a : Action) (r : CmdResult) (j : Jobs) : Jobs :=
  if a = .switch true ∨ a = .position true then (j.startsResult e i a r).fillEvaluate e true
  else (j.stopsResult e i a r).fillEvaluate e (r != .refused .queueFull)

/-! ## Flows, proving and faults (R100 to R102) -/

/-- R101: the pump of the run is faulted. -/
def Jobs.faultPump (e : Env) (n : Nat) (f : ActFault) (j : Jobs) : Jobs :=
  match e.set.pump n with
  | none => j.endRun e n
  | some i => ((j.setFault i f).raise e .pumpFault).endRun e n

/-- R102: the learned flow after a reading. -/
def learn (learned measured : Nat) : Nat :=
  if learned = 0 then measured
  else ((learned : Int) + ((measured : Int) - (learned : Int)).tdiv 8).toNat

/-- R102: the learned flow takes a reading. -/
def Jobs.learnFlow (f : Nat) (j : Jobs) : Jobs := j.plan (fun p => { p with learned := learn p.learned f })

/-- R100, R101: a usable inlet flow at a run that is going. -/
def Jobs.flowAtRun (e : Env) (n f : Nat) (j : Jobs) : Jobs :=
  let enough := decide (e.set.general.minFlow ≤ f)
  match (j.run n).phase with
  | .proving =>
      if enough then (j.updateRun n (fun r => { r with phase := .proved, prove := none })).learnFlow f else j
  | .proved =>
      if (j.run n).metered then
        let j := if enough then j.learnFlow f else j
        if f = 0 then
          if (j.run n).dry.isNone then j.updateRun n (fun r => { r with dry := e.after e.set.general.proveTime }) else j
        else j.updateRun n (fun r => { r with dry := none })
      else j
  | .stopped => j
  | .starting => j

/-- R100 to R102: what an inlet flow, or the loss of the meter, does to the run that is going. -/
def Jobs.inletAtRun (e : Env) (flow : Option Nat) (j : Jobs) : Jobs :=
  match j.running, flow with
  | none, _ => j
  | some n, some f => j.flowAtRun e n f
  | some n, none =>
      if (j.run n).phase = .proved ∧ (j.run n).metered then
        j.updateRun n (fun r => { r with metered := false, dry := none })
      else j

/-- R88, R100 to R102: the inlet flow is delivered, or its meter is unusable. The spec does not say whether the evaluation that
the delivery starts comes before or after its effects on the run and on the learned flow; it comes after them (log 26). -/
def Jobs.fillInlet (e : Env) (flow : Option Nat) (j : Jobs) : Jobs :=
  let evaluates := (j.fill.inletFlow.isSome != flow.isSome) || (flow.isSome && j.running.isSome)
  let j := (j.plan (fun p => { p with inletFlow := flow })).inletAtRun e flow
  if evaluates then j.fillEvaluate e true else j

/-- R88: the outlet flow is held for reading. -/
def Jobs.fillOutlet (flow : Option Nat) (j : Jobs) : Jobs := j.plan (fun p => { p with outletFlow := flow })

/-- The inlet meter is LIVE (R100). -/
def Env.inletLive (e : Env) : Bool :=
  match e.set.knownKind .flowIn with
  | none => false
  | some a => (e.head a).state == .live

/-- R100: the prove timer of pump n expires. -/
def Jobs.proveExpiry (e : Env) (n : Nat) (j : Jobs) : Jobs :=
  if (j.run n).prove.isNone then j
  else
    let j := j.updateRun n (fun r => { r with prove := none })
    if (j.run n).phase = .proving then
      if e.inletLive then (j.faultPump e n .noFlow).fillEvaluate e true
      else j.updateRun n (fun r => { r with phase := .proved, metered := false })
    else j

/-- R101: the dry timer of pump n expires. -/
def Jobs.dryExpiry (e : Env) (n : Nat) (j : Jobs) : Jobs :=
  if (j.run n).dry.isNone then j
  else ((j.updateRun n (fun r => { r with dry := none })).faultPump e n .dryRun).fillEvaluate e true

/-- Pump n holds NO_FLOW or DRY_RUN. -/
def Jobs.pumpFaulted (e : Env) (n : Nat) (j : Jobs) : Bool :=
  match e.set.pump n with
  | none => false
  | some i => (j.act i).fault == .noFlow || (j.act i).fault == .dryRun

/-- R101: the PUMP_FAULT test at a CLEAR_FAULT or an ACTUATORS write, and the evaluation that follows; the spec does not order
the two (log 26). -/
def Jobs.fillFaults (e : Env) (j : Jobs) : Jobs :=
  (if j.pumpFaulted e 1 || j.pumpFaulted e 2 then j else j.clear e .pumpFault).fillEvaluate e true

/-- R98: a discord on the pump of the run while it is commanded ON ends the run; the evaluation follows (R90). -/
def Jobs.fillDiscord (e : Env) (i : Nat) (j : Jobs) : Jobs :=
  (match j.running with
    | none => j
    | some n => if e.set.pump n = some i ∧ j.commanded i = Commanded.on then j.endRun e n else j).fillEvaluate e true

/-- R88: the Fill Plan after a restart: the learned flow is kept. -/
def FillPlan.restart (p : FillPlan) : FillPlan := { FillPlan.powerOn with learned := p.learned }

end Sys2Proof.Machine
end

