-- ==== Sys2Proof/Machine/Store.lean ====
section
/-!
DEFINITION. The settings store (spec/11 R177, spec/06 R113): stores, latch word writes, and what waits for what.
-/

namespace Sys2Proof.Machine

/-- A STORE is in flight; one that waits to begin counts (R173 step 5, R177). -/
def Store.busy (s : Store) : Bool := s.storing.isSome || s.waiting

/-- R177: a store begins: the marker goes incomplete, and the live settings as they stand are copied. -/
def Store.begin (live : Settings) (s : Store) : Store :=
  { s with storing := some live, complete := false, waiting := false, further := false }

/-- R113: a latch word write begins, with the latch as it stands. -/
def Store.beginWrite (latch : Bool) (s : Store) : Store :=
  { s with writing := some latch, writeAsked := false, further := s.waiting }

/-- R177: an idle store begins what waits: a further word write first, unless the waiting STORE has let one go already,
and else the waiting STORE. -/
def Store.beginNext (live : Settings) (latch : Bool) (s : Store) : Store :=
  if s.storing.isSome || s.writing.isSome then s
  else if s.writeAsked && !(s.waiting && s.further) then s.beginWrite latch
  else if s.waiting then s.begin live
  else s

/-- R113, R177: a latch word write is asked: made at once by an idle store, and otherwise later. -/
def Store.ask (latch : Bool) (s : Store) : Store :=
  if s.storing.isSome || s.writing.isSome || s.waiting then { s with writeAsked := true } else s.beginWrite latch

/-- Change the settings store. -/
def Jobs.stored (f : Store → Store) (j : Jobs) : Jobs := { j with store := f j.store }

/-- R110, R114: the guard asks for the latch word to be written. -/
def Jobs.askWord (j : Jobs) : Jobs := j.stored (Store.ask j.guard.latch)

/-- R177: a latch word write ends: the word holds its value, and what waits begins. -/
def Store.wordWritten (live : Settings) (latch : Bool) (s : Store) : Store :=
  match s.writing with
  | none => s
  | some v => ({ s with word := v, writing := none }).beginNext live latch

/-- R177: a store ends: the image holds the settings as they stood when it began, and the marker is complete. -/
def Store.completed (latch : Bool) (s : Store) : Store :=
  match s.storing with
  | none => s
  | some image =>
      ({ s with image := some image, complete := true, storing := none, asker := none }).beginNext image latch

/-- R177, R179: what survives a loss of power: the image and its marker as the last write left them, and the word of the
last completed write. -/
def Store.survive (s : Store) : Store :=
  { Store.never with image := s.image, complete := s.complete, word := s.word }

end Sys2Proof.Machine
end

