-- ==== Sys2Proof/Machine/Guard.lean ====
section
/-!
DEFINITION. The Overflow guard (spec/06): the float, the guard band, the demands, the guard groups, the latched trip, its
release, and blindness.
-/

namespace Sys2Proof.Machine

/-- Change the guard record. -/
def Jobs.guarding (f : GuardRecord → GuardRecord) (j : Jobs) : Jobs := { j with guard := f j.guard }

/-! ## The float (R105) -/

/-- The float state after a telling about the float: wet or dry, or unusable. -/
def floatState (s : Settings) (wet : Option Bool) : FloatState :=
  if (s.knownKind .float).isNone then .none
  else match wet with
    | none => .unknown
    | some true => .wet
    | some false => .dry

/-- R105: the float state lets the drain of a latched trip close. -/
def FloatState.letsDrainClose : FloatState → Bool
  | .dry => true
  | .wet => false
  | .unknown => true
  | .none => true

/-- R105: the float state lets the latch be released. -/
def FloatState.letsRelease : FloatState → Bool
  | .dry => true
  | .wet => false
  | .unknown => false
  | .none => true

/-! ## The band (R107) -/

/-- The lower boundary of a band. -/
def GuardSettings.boundary (g : GuardSettings) : GuardBand → Nat
  | .normal => 0
  | .high => g.high
  | .highHigh => g.hihi
  | .trip => g.trip

/-- The band below. -/
def GuardBand.below : GuardBand → GuardBand
  | .normal => .normal
  | .high => .normal
  | .highHigh => .high
  | .trip => .highHigh

/-- The highest band whose boundary the level has reached. -/
def GuardSettings.reached (g : GuardSettings) (level : Nat) : GuardBand :=
  if g.trip ≤ level then .trip else if g.hihi ≤ level then .highHigh else if g.high ≤ level then .high else .normal

/-- R107 step 4: the band falls while the level is below its own boundary minus HYST_MM; three falls reach NORMAL. -/
def GuardSettings.fall (g : GuardSettings) (level : Nat) : Nat → GuardBand → GuardBand
  | 0, b => b
  | n + 1, b => if b ≠ .normal ∧ level + g.hyst < g.boundary b then GuardSettings.fall g level n b.below else b

/-- R107: the guard band derived. In BLIND the level held is not used: only a wet float enters TRIP. -/
def nextBand (g : GuardSettings) (blind latch : Bool) (float : FloatState) (level : Nat) (b : GuardBand) : GuardBand :=
  if float == .wet || (!blind && decide (g.trip ≤ level)) then .trip
  else if latch then .trip
  else if blind then b
  else if b.code < (g.reached level).code then g.reached level
  else g.fall level 3 b

/-! ## Guard groups (R109, R110) -/

/-- An item of a guard group, left out for an actuator that is absent or MANUAL (R109). -/
def Settings.guardItem (s : Settings) (i : Option Nat) (a : Action) : List Ask :=
  match i with
  | none => []
  | some i => if (s.act i).manual then [] else [.cmd i a]

/-- A guard group of two sides; the fence is left out when no item stands on one side of it (R109). -/
def fenced (before after : List Ask) : List Ask :=
  before ++ (if before.isEmpty || after.isEmpty then [] else [.fence]) ++ after

/-- The two pump OFF items. -/
def Settings.pumpsOff (s : Settings) : List Ask :=
  s.guardItem (s.pump 1) (.switch false) ++ s.guardItem (s.pump 2) (.switch false)

/-- R109: the inhibit group. -/
def Settings.inhibitGroup (s : Settings) : List Ask := fenced s.pumpsOff (s.guardItem s.inlet (.position false))

/-- R110: the trip group, its drain item at the demand given (R117). -/
def Settings.tripGroup (s : Settings) (drainOpened : Bool) : List Ask :=
  fenced s.pumpsOff (s.guardItem s.inlet (.position false) ++ s.guardItem s.drain (.position drainOpened))

/-! ## Keeping the demands (R111) -/

/-- The actuators under a demand with the action demanded, in the order pump 1, pump 2, inlet, drain. The spec gives no order
for the groups of several that are due at one evaluation (log 26). -/
def Jobs.demanded (e : Env) (j : Jobs) : List (Nat × Action) :=
  let item := fun (i : Option Nat) (a : Action) =>
    (e.set.guardItem i a).filterMap Ask.command
  (if j.guard.pumpDemand then item (e.set.pump 1) (.switch false) ++ item (e.set.pump 2) (.switch false) else [])
    ++ (if j.guard.inletDemand then item e.set.inlet (.position false) else [])
    ++ (match j.guard.drainDemand with | none => [] | some d => item e.set.drain (.position d))

/-- R111: the reported states contrary to a demanded action. -/
def contrary (a : Action) (r : StateCode) : Bool :=
  match a with
  | .switch false => r == .on
  | .position false => r == .opened || r == .moving
  | .position true => r == .closed || r == .moving
  | _ => false

/-- R111: an unsent guard command for the actuator stands in the queue. -/
def Jobs.guardWaits (i : Nat) (j : Jobs) : Bool := j.queue.any (fun x => x.isGuard && x.isFor i)

/-- R111: the test for one actuator under a demand. -/
def Jobs.keepDemand (e : Env) (x : Nat × Action) (j : Jobs) : Jobs :=
  if !j.guardWaits x.1
      && (x.2.commanded != some (j.commanded x.1)
        || (contrary x.2 (j.act x.1).reported.code && !j.inFlight x.1)) then
    j.guardGroup e [.cmd x.1 x.2]
  else j

/-- R111: the test for each actuator under a demand but the spared one, at every evaluation; not made while the re-issue wait
is set. -/
def Jobs.keepDemands (e : Env) (spared : Option Nat) (j : Jobs) : Jobs :=
  if j.guard.reissue then j
  else ((j.demanded e).filter (fun x => spared != some x.1)).foldl (fun j x => j.keepDemand e x) j

/-! ## The evaluation (R106) -/

/-- R109, R110: the demands that the band calls for: those of a trip at its entry, and while the latch is clear those of
HIGH_HIGH or none. -/
def GuardRecord.bandDemands (entersTrip : Bool) (g : GuardRecord) : GuardRecord :=
  if entersTrip then { g with pumpDemand := true, inletDemand := true, drainDemand := some true }
  else if g.latch then g
  else { g with pumpDemand := g.band == .highHigh, inletDemand := g.band == .highHigh, drainDemand := none }

/-- R112: the drain demand of a latched trip. -/
def nextDrain (g : GuardSettings) (blind : Bool) (level : Nat) (r : GuardRecord) : Option Bool :=
  match r.drainDemand with
  | some true => if !blind && decide (level < g.drainClose) && r.float.letsDrainClose then some false else some true
  | some false => if r.float == .wet || (!blind && decide (g.trip ≤ level)) then some true else some false
  | none => none

/-- R112: while the latch was set before, the drain demand follows the level and the float. -/
def GuardRecord.drainMoves (e : Env) (level : LevelRecord) (entersTrip : Bool) (r : GuardRecord) : GuardRecord :=
  if r.latch && !entersTrip then
    { r with drainDemand := nextDrain e.set.guard (level.fusion == .blind) level.guard r }
  else r

/-- R117: a QUERY with origin START for a pump, the inlet valve or the drain valve stands in the Command Queue or the
In-Flight Table. -/
def Jobs.startQueryStands (e : Env) (j : Jobs) : Bool :=
  let mine := fun i => e.set.pump 1 == some i || e.set.pump 2 == some i || e.set.inlet == some i || e.set.drain == some i
  j.queue.any (fun x => match x with | .cmd i a o => mine i && a == .query && o == .start | .fence _ => false)
    || j.flight.any (fun f => mine f.idx && f.action == .query && f.origin == .start)

/-- The group of the guard's band: the trip group when the latch is set, the inhibit group when the band is HIGH_HIGH
(R117). -/
def Jobs.bandGroup (e : Env) (j : Jobs) : List Ask :=
  if j.guard.latch then
    match j.guard.drainDemand with
    | some d => e.set.tripGroup d
    | none => e.set.tripGroup true
  else if j.guard.band == .highHigh then e.set.inhibitGroup else []

/-- R117: the re-issue wait ends once no such query stands, and the group of the band is queued. -/
def Jobs.endReissue (e : Env) (j : Jobs) : Jobs :=
  if j.guard.reissue && !j.startQueryStands e then
    (j.guarding (fun g => { g with reissue := false })).guardGroup e (j.bandGroup e)
  else j

/-- R106 step 3: the groups that the entries and the demands call for. -/
def Jobs.queueGroups (e : Env) (entersTrip entersHighHigh drainMoved : Bool) (spared : Option Nat) (j : Jobs) : Jobs :=
  let j :=
    if entersTrip || entersHighHigh then
      (j.guarding (fun g => { g with reissue := false })).guardGroup e (j.bandGroup e)
    else if drainMoved && !j.guard.reissue then
      j.guardGroup e (match j.guard.drainDemand with
        | none => []
        | some d => e.set.guardItem e.set.drain (.position d))
    else j
  (j.endReissue e).keepDemands e spared

/-- R108: the band conditions. The spec gives no order for several at one evaluation; they are taken as NEAR, INHIBIT, TRIP
(log 26). -/
def Jobs.bandConditions (e : Env) (j : Jobs) : Jobs :=
  ((j.keep e .overflowNear (j.guard.band != .normal)).keep e .overflowInhibit
    (j.guard.band == .highHigh || j.guard.band == .trip)).keep e .overflowTrip j.guard.latch

/-- R115: SWITCH off for each present AUTO pump whose commanded or reported state is ON. -/
def Jobs.blindGroup (e : Env) (j : Jobs) : List Ask :=
  (e.set.pumpsOff).filter (fun x => match x with
    | .cmd i _ => j.commanded i == .on || (j.act i).reported.code == .on
    | .fence => false)

/-- R115: LEVEL_BLIND is raised and the running pumps are stopped. -/
def Jobs.blindAction (e : Env) (j : Jobs) : Jobs := (j.raise e .levelBlind).guardGroup e (j.blindGroup e)

/-- What started an evaluation, as far as its tests ask. The blind test of R115 is called for by a level change (with whether
the state before it was BLIND) and by the expiry of the blind start timer; a result other than CANCELLED for a guard command to
an actuator leaves that actuator out of the test of R111. -/
inductive BlindCause where
  | none
  | change (wasBlind : Bool)
  | start
  | result (idx : Nat)
  deriving DecidableEq, Repr

/-- The actuator left out of the test of R111: the one whose command has ended with a result to which R111 gives no effect by
itself (log 28). -/
def BlindCause.spares : BlindCause → Option Nat
  | .none => Option.none
  | .change _ => Option.none
  | .start => Option.none
  | .result i => some i

/-- R106, R111: the evaluation that a guard command's result starts. Only CANCELLED has the test of R111 made for its actuator
at once. -/
def CmdResult.cause (i : Nat) (r : CmdResult) : BlindCause := if r = .cancelled then .none else .result i

/-- R115: the blind test. -/
def Jobs.blindTest (e : Env) (cause : BlindCause) (j : Jobs) : Jobs :=
  let blind := j.level.fusion == .blind
  match cause with
  | .none => j
  | .result _ => j
  | .change wasBlind =>
      if blind then (if wasBlind then j else j.blindAction e)
      else (j.guarding (fun g => { g with blindStart := none })).clear e .levelBlind
  | .start => if blind && !j.active .levelBlind then j.blindAction e else j

/-- R106 steps 1 and 2: the band is derived, its entry into TRIP sets the latch and asks for the latch word, and the
demands follow. -/
def Jobs.bandStep (e : Env) (j : Jobs) : Jobs :=
  let g := j.guard
  let band := nextBand e.set.guard (j.level.fusion == .blind) g.latch g.float j.level.guard g.band
  let enters := band == .trip && g.band != .trip
  let k := { j with
    guard := (({ g with band := band, latch := g.latch || enters } : GuardRecord).bandDemands enters).drainMoves e j.level
      enters }
  if enters then k.askWord else k

/-- R106: a guard evaluation. The Report unit learns of the band by `observe`. -/
def Jobs.guardEvaluate (e : Env) (cause : BlindCause) (j : Jobs) : Jobs :=
  let old := j.guard
  let j := j.bandStep e
  let entersTrip := j.guard.band == .trip && old.band != .trip
  let entersHighHigh := j.guard.band == .highHigh && decide (old.band.code < j.guard.band.code)
  let moved := old.latch && j.guard.drainDemand != old.drainDemand
  let j := j.queueGroups e entersTrip entersHighHigh moved cause.spares
  let j := (j.bandConditions e).blindTest e cause
  if j.guard.band == old.band && j.guard.latch == old.latch then j else j.post .fillEval

/-- R105: a telling about the float; a change of the float state starts an evaluation. -/
def Jobs.guardFloat (e : Env) (wet : Option Bool) (j : Jobs) : Jobs :=
  let f := floatState e.set wet
  if j.guard.float = f then j else (j.guarding (fun g => { g with float := f })).guardEvaluate e .none

/-- R115: the blind start timer expires. -/
def Jobs.blindStartExpiry (e : Env) (j : Jobs) : Jobs :=
  if j.guard.blindStart.isNone then j
  else (j.guarding (fun g => { g with blindStart := none })).guardEvaluate e .start

/-! ## The release (R114) -/

/-- R114: the release is safe. -/
def Jobs.releaseSafe (e : Env) (j : Jobs) : Bool :=
  j.level.fusion != .blind && decide (j.level.guard < e.set.guard.high) && j.guard.float.letsRelease

/-- R114: the release. -/
def Jobs.release (e : Env) (j : Jobs) : Jobs :=
  let j := (j.guarding (fun g =>
    { g with latch := false, pumpDemand := false, inletDemand := false, drainDemand := none,
             band := e.set.guard.reached j.level.guard })).askWord
  let j := ((j.clear e .overflowTrip).clear e .overflowInhibit).clear e .overflowNear
  let j := j.guardGroup e (match e.set.drain with
    | none => []
    | some i => if j.commanded i == .closed then [] else e.set.guardItem (some i) (.position false))
  j.post .fillEval

/-- R114: a RELEASE_TRIP request from the local source; the mark says whether it is answered DONE. -/
def Jobs.releaseTrip (e : Env) (j : Jobs) : Jobs × Bool :=
  if !j.guard.latch then (j, true)
  else if j.releaseSafe e then (j.release e, true) else (j, false)

/-! ## Resets (R115 to R117) -/

/-- R115: the time of the blind start timer: the largest stale limit of the known gauges, or 30 s. -/
def Settings.blindStart (s : Settings) : Nat :=
  let limits := (s.heads.filter (fun h => h.enabled && (h.kind == .gaugePressure || h.kind == .gaugeRanging))).map
    (·.staleLimit)
  if limits.isEmpty then 30 else limits.foldl max 0

/-- R105: the float state at a reset. -/
def Settings.floatAtReset (s : Settings) : FloatState := if (s.knownKind .float).isNone then .none else .unknown

/-- A demand stands. -/
def GuardRecord.demands (g : GuardRecord) : Bool := g.pumpDemand || g.inletDemand || g.drainDemand.isSome

/-- R116: the guard record after power-on, with the latch word read. -/
def GuardRecord.powerOn (e : Env) (word : Bool) : GuardRecord :=
  { band := if word then .trip else .normal, latch := word, float := e.set.floatAtReset, pumpDemand := word,
    inletDemand := word, drainDemand := if word then some true else none, reissue := word,
    blindStart := e.after e.set.blindStart }

/-- R117: the guard record after a restart. -/
def GuardRecord.restart (e : Env) (g : GuardRecord) : GuardRecord :=
  { g with float := e.set.floatAtReset, reissue := g.demands, blindStart := e.after e.set.blindStart }

end Sys2Proof.Machine
end

