-- ==== Sys2Proof/Machine/Frost.lean ====
section
/-!
DEFINITION. The Frost unit (spec/07): compensated temperatures, curves, claims, duty commands, heater proving and the
frost-suspect flags.
-/

namespace Sys2Proof.Machine

/-- The settings of a zone. -/
def Settings.zone (s : Settings) (z : Nat) : ZoneSettings := s.zones.getD z .factory

/-! ## The compensated temperature (R124) -/

/-- R124: a temperature clamped to its range. -/
def clampTemp (t : Int) : Int := max (-600) (min 1270 t)

/-- R124: a difference by an air factor, the floor for a half and a quarter. -/
def AirFactor.of (f : AirFactor) (d : Int) : Int :=
  match f with
  | .one => d
  | .half => d / 2
  | .quarter => d / 4
  | .none => 0

/-- R124: the air correction. -/
def airCorrection (s : SharedSettings) (compensated : Bool) (air : Option Int) : Int :=
  match compensated, air with
  | true, some t => (if 0 ≤ t - s.pivot then s.cUp else s.cDn).of (t - s.pivot)
  | _, _ => 0

/-- R124: the stagnation offset. -/
def stagnationOffset (s : SharedSettings) (compensated : Bool) (age : Nat) : Int :=
  if compensated && decide (s.stagnantAfter ≤ age) then (s.stagnationOffset : Int) else 0

/-- R124: T_eff. -/
def tEffOf (s : SharedSettings) (compensated : Bool) (probe air : Option Int) (age : Nat) : Option Int :=
  probe.map (fun t => clampTemp (t + airCorrection s compensated air - stagnationOffset s compensated age))

/-! ## Risk and state (R125) -/

/-- R125: the at-risk mark. -/
def riskMark (z : ZoneSettings) (tEff : Option Int) (was : Bool) : Bool :=
  match tEff with
  | none => was
  | some t => if t ≤ z.freezeAt then true else if z.freezeAt + (z.h : Int) < t then false else was

/-! ## Curves (R126 to R128) -/

/-- The duty of a segment, D0 to D4. -/
def ZoneSettings.duty (z : ZoneSettings) : Nat → Nat
  | 0 => z.d0
  | 1 => z.d1
  | 2 => z.d2
  | 3 => z.d3
  | _ => z.d4

/-- The lower boundary of segments 0 to 3; segment 4 has none. -/
def ZoneSettings.lower (z : ZoneSettings) : Nat → Int
  | 0 => z.b1
  | 1 => z.b2
  | 2 => z.b3
  | _ => z.b4

/-- R126: the raw segment. -/
def ZoneSettings.rawSegment (z : ZoneSettings) (t : Int) : Nat :=
  if z.b1 ≤ t then 0 else if z.b2 ≤ t then 1 else if z.b3 ≤ t then 2 else if z.b4 ≤ t then 3 else 4

/-- R126: the segment after an evaluation: the warmest one, from the raw segment to one warmer than the held, whose lower
boundary plus H has been reached. -/
def ZoneSettings.segment (z : ZoneSettings) (t : Int) (held : Option Nat) : Nat :=
  let raw := z.rawSegment t
  match held with
  | none => raw
  | some h =>
      if h ≤ raw then raw
      else (((List.range h).filter (fun j => decide (raw ≤ j))).find?
        (fun j => decide (z.lower j + (z.h : Int) ≤ t))).getD h

/-- R127: the duty between two boundaries, truncating. -/
def between (t upper lower : Int) (warm cold : Nat) : Nat :=
  ((warm : Int) + ((upper - t) * ((cold : Int) - (warm : Int))).tdiv (upper - lower)).toNat

/-- R127: the computed duty. -/
def ZoneSettings.computed (z : ZoneSettings) (t : Int) : Nat :=
  if z.b1 ≤ t then z.d0
  else if z.b2 ≤ t then between t z.b1 z.b2 z.d1 z.d2
  else if z.b3 ≤ t then between t z.b2 z.b3 z.d2 z.d3
  else if z.b4 ≤ t then between t z.b3 z.b4 z.d3 z.d4
  else z.d4

/-- R126, R127: the curve at a T_eff: the segment or the anchor moves, and the curve duty follows. -/
def Zone.curveAt (s : ZoneSettings) (t : Int) (z : Zone) : Zone :=
  match s.mode with
  | .stage => { z with segment := some (s.segment t z.segment), curve := s.duty (s.segment t z.segment) }
  | .linear =>
      let c := s.computed t
      match z.anchor with
      | none => { z with curve := c, anchor := some t }
      | some a =>
          if z.curve < c then { z with curve := c, anchor := some t }
          else if c < z.curve ∧ a + (s.h : Int) ≤ t then { z with curve := c, anchor := some t }
          else z

/-- R128: the probe is known and has given no value since the reset. -/
def Env.probeUnseen (e : Env) (z : Nat) : Bool :=
  match e.set.probe z with
  | none => false
  | some a => (e.head a).state == .unseen || (e.head a).state == .live

/-- R128: the curve without T_eff. -/
def Zone.curveAbsent (s : ZoneSettings) (unseen : Bool) (z : Zone) : Zone :=
  if unseen then { z with curve := 0 }
  else match s.mode with
    | .stage => { z with curve := s.d4, segment := some 4 }
    | .linear => { z with curve := s.d4, anchor := none }

/-! ## Claims and grants (R129, R130) -/

/-- The heater of the zone holds NO_HEAT. -/
def Jobs.heaterFailed (e : Env) (z : Nat) (j : Jobs) : Bool :=
  match e.set.heater z with
  | none => false
  | some i => (j.act i).fault == .noHeat

/-- R125: the zone state. -/
def zoneState (failed : Bool) (z : Zone) : ZoneState :=
  if failed then .failed else if z.atRisk then .freezeRisk else if 0 < z.curve then .heating else .off

/-- R129: the units of a duty, rounded up. -/
def dutyUnits (rated duty : Nat) : Nat := (rated * duty + 99) / 100

/-- R129: the class that a zone claims. -/
def Zone.claimFor (z : Zone) : ClaimClass :=
  match z.state with
  | .failed => .none
  | .off => .none
  | .freezeRisk => if z.curve = 0 then .none else .critical
  | .heating => if z.curve = 0 then .none else .normal

/-- A zone with a heater that is AUTO: its entry (R129, R131). -/
def Settings.autoHeater (s : Settings) (z : Nat) : Option Nat :=
  match s.heater z with
  | none => none
  | some i => if (s.act i).manual then none else some i

/-- R129: the zone's claim, class and units. -/
def Zone.claimed (s : Settings) (n : Nat) (z : Zone) : ClaimClass × Nat :=
  if (s.autoHeater n).isNone || z.claimFor == .none then (.none, 0) else (z.claimFor, dutyUnits (s.zoneRated n) z.curve)

/-- R130: the granted duty. -/
def Zone.granted (s : Settings) (n : Nat) (z : Zone) : Nat :=
  if z.grant = 0 ∨ z.state = .failed ∨ s.heater n = none then 0
  else
    let d := min z.curve (z.grant * 100 / s.zoneRated n)
    if d < Config.dutyMin then 0 else d

/-! ## Duty commands (R131) -/

/-- R131: the granted duty `t` asks for a command. -/
def dutyAsked (step t : Nat) : Option Nat → Bool
  | none => true
  | some c => (t == 0 && c != 0) || (t != 0 && c == 0) || decide (t < c) || decide (c + step ≤ t)

/-- The proving of a heater ends (R131, R132). -/
def Zone.idle (z : Zone) : Zone := { z with proving := .idle, timer := none }

/-- R131: the commanded duty becomes t when the request is queued or parked. -/
def Jobs.dutyTaken (z t : Nat) (taken : Taken) (j : Jobs) : Jobs :=
  if taken = .queued ∨ taken = .parked then j.updateZone z (fun r => { r with commandedDuty := some t }) else j

/-- R131: DUTY t is asked of the zone's heater. -/
def Jobs.askDuty (e : Env) (z i t : Nat) (j : Jobs) : Jobs :=
  let r := (j.updateZone z Zone.idle).take e .frost i (.duty t)
  r.1.dutyTaken z t r.2

/-- R131: the duty request of an evaluation. The retry wait lets it be made only at a minute boundary, which has cleared
the wait before. -/
def Jobs.dutyRequest (e : Env) (z : Nat) (j : Jobs) : Jobs :=
  match e.set.autoHeater z with
  | none => j
  | some i =>
      let r := j.zone z
      if !r.retry && dutyAsked e.set.shared.dutyStep r.grantedDuty r.commandedDuty then j.askDuty e z i r.grantedDuty
      else j

/-! ## The evaluation (R122) -/

/-- R122 steps 1 to 4: the zone record derived. An unfitted zone has no T_eff, no risk and no duty. -/
def Zone.derive (e : Env) (n : Nat) (air : Option Int) (age : Nat) (failed : Bool) (z : Zone) : Zone :=
  let s := e.set.zone n
  if !e.set.fitted n then { z with tEff := none, atRisk := false, curve := 0, state := .off }
  else
    let t := tEffOf e.set.shared s.compensated z.probe air age
    let z := { z with tEff := t, atRisk := riskMark s t z.atRisk }
    let z := match t with
      | some t => z.curveAt s t
      | none => z.curveAbsent s (e.probeUnseen n)
    { z with state := zoneState failed z }

/-- R125: the FREEZE_RISK test. -/
def Jobs.freezeTest (e : Env) (j : Jobs) : Jobs := j.keep e .freezeRisk (j.frost.zones.any (·.atRisk))

/-- R122: an evaluation of zone `z`. The Report unit learns of T_eff and the commanded duty by `observe`. -/
def Jobs.zoneEvaluate (e : Env) (z : Nat) (j : Jobs) : Jobs :=
  let j := j.updateZone z (fun r => r.derive e z j.frost.air j.frost.age (j.heaterFailed e z))
  let claim := (j.zone z).claimed e.set z
  let j := (j.updateZone z (fun r => { r with claimClass := claim.1, claimUnits := claim.2 })).postZone z claim.1 claim.2
  let j := j.updateZone z (fun r => { r with grantedDuty := r.granted e.set z })
  (j.dutyRequest e z).freezeTest e

/-- An evaluation of every zone at one event, each whole before the next, in no set order (log 1). -/
def Jobs.evaluateZones (j : Jobs) : Jobs := j.tellFirst [.frostZone 0, .frostZone 1, .frostZone 2, .frostZone 3]

/-! ## Frost-suspect gauges (R135) -/

/-- R135: a flag after the test against a housing temperature. -/
def suspectAfter (iceSuspect : Int) (t : Option Int) (was : Bool) : Bool :=
  match t with
  | none => was
  | some t => if t ≤ iceSuspect then true else if iceSuspect + 10 < t then false else was

/-- R135: the test of one gauge; the Level unit is told of a change (R40). -/
def Jobs.suspectTest (e : Env) (kind : HeadKind) (housing : Option Nat) (j : Jobs) : Jobs :=
  match e.set.knownKind kind, housing with
  | some a, some z =>
      let was := j.suspects.getD (a - 1) false
      let now := suspectAfter e.set.guard.iceSuspect (j.zone z).probe was
      if now = was then j else ({ j with suspects := updateAt (fun _ => now) (a - 1) j.suspects }).post .recompute
  | _, _ => j

/-- R135: the test of both gauges. -/
def Jobs.suspectTests (e : Env) (j : Jobs) : Jobs :=
  (j.suspectTest e .gaugePressure e.set.guard.housingA).suspectTest e .gaugeRanging e.set.guard.housingB

/-! ## Deliveries (R122, R123) -/

/-- A delivery of a zone's probe, or its loss. The spec does not order the zone's evaluation and the frost-suspect test of a
gauge that it houses (R122, R135); the evaluation comes first (log 26). -/
def Jobs.frostProbe (e : Env) (z : Nat) (t : Option Int) (j : Jobs) : Jobs :=
  let j := (j.updateZone z (fun r => { r with probe := t })).zoneEvaluate e z
  let j := if e.set.guard.housingA = some z then j.suspectTest e .gaugePressure (some z) else j
  if e.set.guard.housingB = some z then j.suspectTest e .gaugeRanging (some z) else j

/-- Change the Frost unit's own fields. -/
def Jobs.frosted (f : Frost → Frost) (j : Jobs) : Jobs := { j with frost := f j.frost }

/-- A delivery of the air probe, or its loss: every zone is then evaluated (R122). -/
def Jobs.frostAir (t : Option Int) (j : Jobs) : Jobs := (j.frosted (fun f => { f with air := t })).evaluateZones

/-- R123: the flow moves the water. -/
def stirs (s : SharedSettings) : Option Nat → Bool
  | none => false
  | some f => decide (s.stirFlow ≤ f)

/-- R123: the watched flow is the outlet's. -/
def Settings.watchesOutlet (s : Settings) : Bool := (s.knownKind .flowOut).isSome

/-- A delivery of the inlet flow, or its loss; at or above STIR_FLOW the watched flow sets the age to 0. -/
def Jobs.frostInlet (e : Env) (flow : Option Nat) (j : Jobs) : Jobs :=
  j.frosted (fun f =>
    { f with inlet := flow, age := if !e.set.watchesOutlet && stirs e.set.shared flow then 0 else f.age })

/-- A delivery of the outlet flow, or its loss. -/
def Jobs.frostOutlet (e : Env) (flow : Option Nat) (j : Jobs) : Jobs :=
  j.frosted (fun f =>
    { f with outlet := flow, age := if e.set.watchesOutlet && stirs e.set.shared flow then 0 else f.age })

/-- R123: the stagnation age at a minute boundary. -/
def Frost.aged (s : Settings) (f : Frost) : Frost :=
  { f with age := if stirs s.shared (if s.watchesOutlet then f.outlet else f.inlet) then 0 else min 65535 (f.age + 1) }

/-- R131: the evaluation of a zone at a minute boundary, which first clears the retry wait. -/
def Jobs.frostMinuteZone (e : Env) (z : Nat) (j : Jobs) : Jobs :=
  (j.updateZone z (fun r => { r with retry := false })).zoneEvaluate e z

/-- R122, R123, R135: a minute boundary: the age, then each zone, in no set order (log 1), then the gauges (log 26). -/
def Jobs.frostMinute (e : Env) (j : Jobs) : Jobs :=
  let j := j.frosted (Frost.aged e.set)
  ({ j with work := .frostSuspect :: j.work }).tellFirst
    [.frostMinuteZone 0, .frostMinuteZone 1, .frostMinuteZone 2, .frostMinuteZone 3]

/-- A grant told by the Power allotment (R130). -/
def Jobs.frostGrant (e : Env) (z grant : Nat) (j : Jobs) : Jobs :=
  (j.updateZone z (fun r => { r with grant := grant })).zoneEvaluate e z

/-! ## Results, discord and hold (R132) -/

/-- R133: proving starts. -/
def Zone.prove (e : Env) (rated d : Nat) (z : Zone) : Zone :=
  { z with expected := rated * d / 100, proving := .proving, timer := e.after e.set.shared.heatProve }

/-- R132: a result acts on the zone record. -/
def Zone.result (e : Env) (rated : Nat) (a : Action) (r : CmdResult) (z : Zone) : Zone :=
  match r with
  | .done =>
      match a with
      | .duty d => if d = 0 then z.idle else z.prove e rated d
      | _ => z
  | .parked => z
  | .notIssued => { z with commandedDuty := none }
  | .refused _ => { z with commandedDuty := none, retry := true }
  | .cancelled => { z with commandedDuty := none, retry := true }
  | .timedOut => { z with commandedDuty := none, retry := true }
  | .failed => { z with commandedDuty := none, retry := true }

/-- R132: a result for a FROST command. Where the entry has meanwhile left the asking zone or become another zone's heater, the
spec does not say whose record the result acts on: it acts on that of the zone whose heater the entry is when the result is
taken, and on none where there is none (log 29). The CANCELLED results of a write under R81 are `Zone.entryMoved`'s. -/
def Jobs.frostResult (e : Env) (i : Nat) (a : Action) (r : CmdResult) (j : Jobs) : Jobs :=
  match e.set.heaterZone i with
  | none => j
  | some z => (j.updateZone z (fun x => x.result e (e.set.zoneRated z) a r)).zoneEvaluate e z

/-- R132: a write under R81 has changed the zone's heater entry: the commanded duty becomes absent and the proving ends, and a
CANCELLED result that the change gave acts as in R132's table. -/
def Zone.entryMoved (cancelled : Bool) (z : Zone) : Zone :=
  { z.idle with commandedDuty := none, retry := z.retry || cancelled }

/-- R132: a discord on a heater. -/
def Jobs.frostDiscord (e : Env) (i : Nat) (j : Jobs) : Jobs :=
  match e.set.heaterZone i with
  | none => j
  | some z =>
      (if (j.zone z).retry then j
        else j.updateZone z (fun r => { r with commandedDuty := none, retry := true })).zoneEvaluate e z

/-- R132: an operator hold on a heater starts or ends. -/
def Jobs.frostHold (e : Env) (i : Nat) (start : Bool) (j : Jobs) : Jobs :=
  match e.set.heaterZone i with
  | none => j
  | some z => (if start then j.updateZone z Zone.idle else j).zoneEvaluate e z

/-! ## Proving and failing (R133, R134) -/

/-- R133: a measured value is sufficient. -/
def sufficient (m expected : Nat) : Bool := decide (expected ≤ m * 4)

/-- R133: a STATUS from the heater. -/
def Zone.measured (e : Env) (m : Nat) (z : Zone) : Zone :=
  match z.proving with
  | .idle => z
  | .proving => if sufficient m z.expected then { z with proving := .proved, timer := none } else z
  | .proved =>
      if sufficient m z.expected then { z with timer := none }
      else if z.timer.isNone then { z with timer := e.after e.set.shared.heatProve } else z

/-- R133: a STATUS from the heater at entry `i`. -/
def Jobs.frostStatus (e : Env) (i m : Nat) (j : Jobs) : Jobs :=
  match e.set.heaterZone i with
  | none => j
  | some z => j.updateZone z (Zone.measured e m)

/-- R134: the heater of a zone is failed. -/
def Jobs.failHeater (e : Env) (z : Nat) (j : Jobs) : Jobs :=
  let j := match e.set.heater z with
    | none => j
    | some i => j.setFault i .noHeat
  ((j.updateZone z Zone.idle).raise e .heaterFail).zoneEvaluate e z

/-- R133: the heater prove timer of a zone expires. -/
def Jobs.heaterProveExpiry (e : Env) (z : Nat) (j : Jobs) : Jobs :=
  if (j.zone z).timer.isSome && (j.zone z).proving != .idle then j.failHeater e z else j

/-- R134: the HEATER_FAIL test at a CLEAR_FAULT or an ACTUATORS write. -/
def Jobs.frostFaults (e : Env) (j : Jobs) : Jobs :=
  if (List.range Config.actuatorCount).any (fun i =>
    e.set.actInUse i && (e.set.act i).kind == .heater && (j.act i).fault == .noHeat) then j
  else j.clear e .heaterFail

/-- R132: a write has left zone `z` without the heater entry it had: its commanded duty becomes absent, its proving ends,
and the entry, if it is still an AUTO heater in use, is asked DUTY 0. -/
def Jobs.leaveHeater (e : Env) (before : Settings) (z : Nat) (j : Jobs) : Jobs :=
  match before.heater z with
  | none => j
  | some i =>
      if e.set.heater z = some i then j
      else
        let j := j.updateZone z (fun r => { r.idle with commandedDuty := none })
        let a := e.set.act i
        if a.inUse && a.kind == .heater && !a.manual then j.request e .frostLeft [.cmd i (.duty 0)] else j

/-- R132: the zones that a write has left without their heater entries. -/
def Jobs.leaveHeaters (e : Env) (before : Settings) (j : Jobs) : Jobs :=
  [0, 1, 2, 3].foldl (fun j z => j.leaveHeater e before z) j

/-- R136: the Frost unit at a restart: the stagnation age is kept. -/
def Frost.restart (f : Frost) : Frost :=
  { zones := List.replicate 4 Zone.powerOn, air := none, inlet := none, outlet := none, age := f.age }

end Sys2Proof.Machine
end

