-- ==== Sys2Proof/Machine/Intake.lean ====
section
/-!
DEFINITION. Intake (spec/02): acceptance and bounding of sample items, head states, deliveries, and what a write to a head's
settings does.
-/

namespace Sys2Proof.Machine

/-! ## Acceptance and bounds (R23, R28, R29) -/

/-- What an accepted sample item says: a bounded value with its clamped mark, or a fault with its code. -/
inductive Reading where
  | value (v : Int) (clamped : Bool)
  | fault (code : Nat)
  deriving DecidableEq, Repr

/-- R23, R28, R29: the reading of an item from a head of kind `k`; none for an item that is skipped. -/
def reading (k : HeadKind) : SampleItem → Option Reading
  | .levelCount v => if k = .gaugePressure then some (.value (min v 65535 : Nat) (decide (65535 < v))) else none
  | .distance v => if k = .gaugeRanging then some (.value (min v 30000 : Nat) (decide (30000 < v))) else none
  | .floatState v =>
      if k = .float then (if v ≤ 1 then some (.value (v : Int) false) else some (.fault 0)) else none
  | .temperature v => if k = .probe ∨ k = .airProbe then some (.value (clampTemp v) false) else none
  | .pulsePeriod v => if k = .flowIn ∨ k = .flowOut then some (.value (min v 65535 : Nat) false) else none
  | .headFault code => if code = 0 then none else some (.fault code)

/-- R35: the flow of a pulse period with the pulse size K. -/
def flowOf (k p : Nat) : Nat := if p = 0 ∨ p = 65535 then 0 else min 65535 (600 * k / p)

/-! ## Deliveries (R34) -/

/-- R34: what the consumers of a head's kind are told of its usable value, or of an unusable one. -/
def deliveries (h : HeadSettings) (clamped : Bool) (v : Option Int) : List Event :=
  match h.kind with
  | .gaugePressure =>
      match v with
      | some c => [.gaugeA c.toNat clamped h.zero h.span h.fullScale]
      | none => [.gaugeAGone]
  | .gaugeRanging =>
      match v with
      | some d => [.gaugeB d.toNat clamped h.mount]
      | none => [.gaugeBGone]
  | .float => [.guardFloat (v.map (fun x => x != 0))]
  | .probe => [.frostProbe h.role v]
  | .airProbe => [.frostAir v]
  | .flowIn =>
      let f := v.map (fun p => flowOf h.pulse p.toNat)
      [.fillInlet f, .frostInlet f]
  | .flowOut =>
      let f := v.map (fun p => flowOf h.pulse p.toNat)
      [.fillOutlet f, .frostOutlet f]
  | _ => []

/-- The consumers are told of the value of the head at address `a`, as its record stands. -/
def Jobs.deliver (e : Env) (a : Nat) (j : Jobs) : Jobs :=
  j.tell (deliveries (e.set.head a) (e.head a).clamped (e.head a).lastValue)

/-- The consumers are told that the value of a head with these settings is unusable. -/
def Jobs.unusable (h : HeadSettings) (j : Jobs) : Jobs := j.tell (deliveries h false none)

/-! ## HEAD_STALE (R31) -/

/-- A known head other than a SERVICE head is STALE. -/
def Env.anyStale (e : Env) : Bool :=
  (List.range Config.headCount).any (fun i =>
    let a := i + 1
    e.set.known a && (e.set.head a).kind != .service && (e.head a).state == .stale)

/-- R31: the HEAD_STALE test. -/
def Jobs.headStaleTest (e : Env) (j : Jobs) : Jobs := j.keep e .headStale e.anyStale

/-- The test is made when the head was STALE. -/
def Jobs.leftStale (e : Env) (was : HeadState) (j : Jobs) : Jobs := if was == .stale then j.headStaleTest e else j

/-! ## Items (R26, R27, R29) -/

/-- Time, settings and head records, with what the evaluations write. -/
abbrev Part := Env × Jobs

/-- An accepted item is recorded: arrival, sample count and stale timer (R27, R29). -/
def HeadRuntime.accepted (e : Env) (limit : Nat) (r : HeadRuntime) : HeadRuntime :=
  { r with lastArrival := some e.clock.tow, samples := r.samples + 1#32, stale := e.after limit }

/-- R27: a value item accepted from the head at address `a`. -/
def takeValue (a : Nat) (v : Int) (clamped : Bool) (p : Part) : Part :=
  let old := p.1.head a
  let h := p.1.set.head a
  let e := p.1.updateHead a (fun r =>
    { r.accepted p.1 h.staleLimit with state := .live, lastValue := some v, clamped := clamped })
  let j := p.2.leftStale e old.state
  let told := h.kind != .float || old.state != .live || old.lastValue != some v
  (e, if told then j.deliver e a else j)

/-- R29: a fault accepted from the head at address `a`. -/
def takeFault (a : Nat) (code : Nat) (p : Part) : Part :=
  let old := p.1.head a
  let h := p.1.set.head a
  let e := p.1.updateHead a (fun r => { r.accepted p.1 h.staleLimit with state := .faulty, faultCode := some code })
  (e, (p.2.leftStale e old.state).unusable h)

/-- R26: one item of a SAMPLE cell from the known head at address `a`; one that is not accepted changes nothing. -/
def takeItem (a : Nat) (x : SampleItem) (p : Part) : Part :=
  match reading (p.1.set.head a).kind x with
  | none => p
  | some (.value v clamped) => takeValue a v clamped p
  | some (.fault code) => takeFault a code p

/-! ## Silent heads (R32) -/

/-- The cell carries a HEAD_FAULT item that is accepted. -/
def faultItem (bs : List Byte) : Bool :=
  cellKind bs == kindSample && (sampleItems bs).any (fun x => match x with | .headFault code => code != 0 | _ => false)

/-- R32: a good cell at the F-port from a known head of a silent kind: its arrival is recorded and its timer restarted, and
unless the cell carries a fault the head is LIVE. -/
def heard (bs : List Byte) (p : Part) : Part :=
  let a := cellSource bs
  if p.1.set.known a && !(p.1.set.head a).kind.measuring then
    let was := (p.1.head a).state
    let live := !faultItem bs
    let e := p.1.updateHead a (fun r =>
      { r with lastArrival := some p.1.clock.tow, stale := p.1.after (p.1.set.head a).staleLimit,
               state := if live then .live else r.state })
    (e, if live then p.2.leftStale e was else p.2)
  else p

/-! ## Stale timers (R30) -/

/-- R30: the stale timer of the head at address `a` expires. -/
def staleExpiry (a : Nat) (p : Part) : Part :=
  if (p.1.head a).stale.isSome && p.1.set.known a then
    let h := p.1.set.head a
    let e := p.1.updateHead a (fun r => { r with state := .stale, stale := none })
    let j := p.2.unusable h
    (e, if h.kind = .service then j else j.headStaleTest e)
  else p

/-! ## Writes (R37) -/

/-- R37: the runtime record of a head that a write disables or enables; the sample count is kept. -/
def HeadRuntime.cleared (timer : Timer) (r : HeadRuntime) : HeadRuntime :=
  { HeadRuntime.powerOn with samples := r.samples, stale := timer }

/-- R36: the frost-suspect flag of the head at address `a` is cleared; the Level unit is told when it was set. -/
def Jobs.clearSuspect (a : Nat) (j : Jobs) : Jobs :=
  if j.suspects.getD (a - 1) false then
    ({ j with suspects := updateAt (fun _ => false) (a - 1) j.suspects }).post .recompute
  else j

/-- R36, R37: a head's value has become unusable and its frost-suspect flag is cleared: the consumers are told, and of a
flag that was set the Level unit. The spec does not say which the Level unit hears first; the order is free (log 1). -/
def Jobs.headReset (a : Nat) (h : HeadSettings) (j : Jobs) : Jobs :=
  ({ j with suspects := updateAt (fun _ => false) (a - 1) j.suspects }).tell
    (deliveries h false none ++ (if j.suspects.getD (a - 1) false then [Event.recompute] else []))

/-- R37: the head at address `a`, with the settings `h`, is disabled. -/
def disableHead (a : Nat) (h : HeadSettings) (p : Part) : Part :=
  let e := p.1.updateHead a (HeadRuntime.cleared none)
  (e, (p.2.headReset a h).headStaleTest e)

/-- R37: the head at address `a`, with the settings `h`, is enabled. -/
def enableHead (a : Nat) (h : HeadSettings) (p : Part) : Part :=
  let e := p.1.updateHead a (HeadRuntime.cleared (p.1.after h.staleLimit))
  (e, p.2.headReset a h)

/-- The scaling that a delivery of the kind carries has changed (R37). -/
def HeadSettings.rescaled (old new : HeadSettings) : Bool :=
  match new.kind with
  | .gaugePressure => old.zero != new.zero || old.span != new.span || old.fullScale != new.fullScale
  | .gaugeRanging => old.mount != new.mount
  | .flowIn => old.pulse != new.pulse
  | .flowOut => old.pulse != new.pulse
  | _ => false

/-- R37: a HEADS write to the entry of address `a` has been taken; `old` is the entry before it. -/
def headWritten (a : Nat) (old : HeadSettings) (p : Part) : Part :=
  let new := p.1.set.head a
  match old.enabled, new.enabled with
  | false, false => p
  | false, true => enableHead a new p
  | true, false => disableHead a old p
  | true, true =>
      if old.kind ≠ new.kind ∨ old.role ≠ new.role then enableHead a new (disableHead a old p)
      else if old.rescaled new && (p.1.head a).state == .live then (p.1, p.2.deliver p.1 a)
      else p

/-- R37: the write can make a pump present or absent. -/
def pumpWrite (old new : HeadSettings) : Bool :=
  (old.kind == .pump || new.kind == .pump)
    && (old.kind != new.kind || old.role != new.role || old.enabled != new.enabled)

/-! ## Resets (R38) -/

/-- R25, R38: the runtime records after a reset; `keep` says whether the sample counts are kept. -/
def headsAtReset (e : Env) (keep : Bool) : List HeadRuntime :=
  (List.range Config.headCount).map (fun i =>
    let a := i + 1
    { HeadRuntime.powerOn with
      samples := if keep then (e.head a).samples else 0#32
      stale := if e.set.known a then e.after (e.set.head a).staleLimit else none })

end Sys2Proof.Machine
end

