-- ==== Sys2Proof/Machine/Settle.lean ====
section
/-!
DEFINITION. Tellings between the blocks: what each event does, what a change hands on, and the settling that takes the
tellings in turn until none is left (log 2).
-/

namespace Sys2Proof.Machine

/-- What an event does in the block it is told to. -/
def Jobs.handle (e : Env) (ev : Event) (j : Jobs) : Jobs :=
  match ev with
  | .gaugeA count mark z s f => j.gaugeA e count mark z s f
  | .gaugeB distance mark mount => j.gaugeB e distance mark mount
  | .gaugeAGone => j.gaugeAGone e
  | .gaugeBGone => j.gaugeBGone e
  | .recompute => j.relevel e
  | .fillEval => j.fillEvaluate e true
  | .fillInlet flow => j.fillInlet e flow
  | .fillOutlet flow => j.fillOutlet flow
  | .fillResult i a r => j.fillResult e i a r
  | .fillCommanded => j.fillCommanded e
  | .fillDiscord i => j.fillDiscord e i
  | .fillFaults => j.fillFaults e
  | .guardEval => j.guardEvaluate e .none
  | .guardLevel wasBlind => j.guardEvaluate e (.change wasBlind)
  | .guardFloat wet => j.guardFloat e wet
  | .guardResult i r => j.guardEvaluate e (r.cause i)
  | .frostZone z => j.zoneEvaluate e z
  | .frostProbe z t => j.frostProbe e z t
  | .frostAir t => j.frostAir t
  | .frostInlet flow => j.frostInlet e flow
  | .frostOutlet flow => j.frostOutlet e flow
  | .frostMinute => j.frostMinute e
  | .frostMinuteZone z => j.frostMinuteZone e z
  | .frostResult i a r => j.frostResult e i a r
  | .frostStatus i m => j.frostStatus e i m
  | .frostDiscord i => j.frostDiscord e i
  | .frostHold i start => j.frostHold e i start
  | .frostGrant z g => j.frostGrant e z g
  | .frostFaults => j.frostFaults e
  | .frostSuspect => j.suspectTests e
  | .pass => j.pass e
  | .cap => j.deriveCap e
  | .powerResult i r => j.powerResult e i r
  | .operatorResult i a r => j.operatorResult e i a r
  | .condMinute => j.tele' (fun v t => t.repost v) e

/-- The actuators whose commanded state a change has moved. -/
def commandedMoved (before after : Jobs) : List Nat :=
  (List.range Config.actuatorCount).filter (fun i => after.commanded i != before.commanded i)

/-- The actuators whose reported state a change has moved. -/
def reportedMoved (before after : Jobs) : List Nat :=
  (List.range Config.actuatorCount).filter (fun i => (after.act i).reported != (before.act i).reported)

/-- The actuator is of the kind. -/
def Settings.isKind (s : Settings) (k : ActKind) (i : Nat) : Bool := (s.act i).kind == k

/-- A pump's commanded state has moved. -/
def pumpCommanded (s : Settings) (before after : Jobs) : Bool := (commandedMoved before after).any (s.isKind .pump)

/-- R138, R141: the incumbent flags follow a change of a pump's commanded state as part of that change, and the pass that a
changed flag starts comes before the tellings that wait. -/
def flagsFollow (e : Env) (before after : Jobs) : Jobs :=
  if pumpCommanded e.set before after then after.incumbents e else after

/-- R63, R98, R106: what a change of commanded and of reported states hands on. -/
def movedTold (s : Settings) (before after : Jobs) : List Event :=
  let cmd := commandedMoved before after
  let rep := reportedMoved before after
  let moved := fun (k : ActKind) (l : List Nat) => l.any (s.isKind k)
  (if moved .pump cmd then [.fillCommanded] else [])
    ++ (if moved .pump rep || moved .valveInlet rep then [.fillEval] else [])
    ++ (if moved .pump cmd || moved .valveInlet cmd || moved .valveDrain cmd || moved .pump rep || moved .valveInlet rep
        || moved .valveDrain rep then [.guardEval] else [])

/-- What a change hands on when it is complete: discord marks that no longer hold are cleared (R77), the incumbent flags follow
the commanded states (R138), moved commanded and reported states are told, and the Report unit learns of the changed quantities
(R160, R161). Two places here are the model's choice (log 26). The Report unit is told at the end of the change and before any
telling that waits; it is not in the free order of log 1 (R34, R41, R123). The result of a command that the change has ended
waits already, so its origin takes it before the change of the reported state (R63, R66). -/
def observe (e0 : Env) (j0 : Jobs) (e : Env) (j : Jobs) : Jobs :=
  let j := j.discordTest e
  let told := movedTold e.set j0 j
  let j := if told.isEmpty then j else (flagsFollow e j0 j).tell told
  j.tele' (fun v t => t.figuresChanged v (figures e0 j0)) e

/-- One telling taken, with what it hands on. -/
def Jobs.takeEvent (e : Env) (ev : Event) (j : Jobs) : Jobs := observe e j e (j.handle e ev)

/-- The bars of log 7 end. -/
def Jobs.unbar (j : Jobs) : Jobs := j.plan (fun p => { p with startBar := [] })

/-- Tellings taken in turn, and then the bars end; the bound is log 2's. -/
def Jobs.drain (e : Env) : Nat → Jobs → Jobs
  | 0, j => j.unbar
  | n + 1, j =>
      match j.work with
      | [] => j.unbar
      | ev :: rest => Jobs.drain e n (Jobs.takeEvent e ev { j with work := rest })

/-- A settling: every telling taken, none left but past the bound. -/
def Jobs.settle (e : Env) (j : Jobs) : Jobs := Jobs.drain e Config.settleLimit j

/-- A change of the part by one block, with all that it causes in the others. -/
def Part.change (f : Part → Part) (p : Part) : Part :=
  let q := f p
  (q.1, (observe p.1 p.2 q.1 q.2).settle q.1)

/-- A change that reads the settings, the time and the heads and moves the rest. -/
def Part.work (f : Env → Jobs → Jobs) (p : Part) : Part := Part.change (fun q => (q.1, f q.1 q.2)) p

end Sys2Proof.Machine
end

