-- ==== Sys2Proof/Machine/LoopPorts.lean ====
section
/-!
DEFINITION. The Loop interface (spec/01): forwarded queues, credits, the CREDIT_WAIT timer, the two arbiters and their
sends. Also the shape of a command on the whole state: what it does, then what it causes.
-/

namespace Sys2Proof.Machine

/-! ## Commands on the state -/

/-- The part of the state that the blocks share. -/
def State.part (s : State) : Part := (s.env, s.jobs)

/-- Put the blocks' part back. -/
def State.withPart (p : Part) (s : State) : State := { s with env := p.1, jobs := p.2 }

/-- A change by the blocks, settled. -/
def State.change (f : Part → Part) (s : State) : State := s.withPart (Part.change f s.part)

/-- A change that reads settings, time and heads and moves the rest, settled. -/
def State.work (f : Env → Jobs → Jobs) (s : State) : State := s.withPart (Part.work f s.part)

/-- Change the counters and conditions without anything to settle but what they cause. -/
def State.tally (f : Jobs → Jobs) (s : State) : State := { s with jobs := f s.jobs }

/-! ## Candidates and CREDIT_WAIT (R14, R15) -/

/-- A routine candidate waits: a forwarded cell, or a READY open cell (R15). -/
def State.routineWaits (s : State) : Bool := !s.loop.lQueue.isEmpty || s.jobs.tele.opened.ready

/-- At least one L-port candidate waits (R15). -/
def State.candidateWaits (s : State) : Bool := s.jobs.tele.urgent.ready || s.routineWaits

/-- R14: the CREDIT_WAIT timer after a command: it runs exactly while the credits are 0, a candidate waits and
LINE_STALLED is inactive, and keeps its expiry while it runs. -/
def State.creditWatch (s : State) : State :=
  let t : Timer :=
    if s.loop.credits = 0 ∧ s.candidateWaits ∧ !s.jobs.active .lineStalled then
      (match s.loop.creditWait with
        | some t => some t
        | none => s.env.after s.env.set.general.creditWait)
    else none
  { s with loop := { s.loop with creditWait := t } }

/-- R14: the CREDIT_WAIT timer expires. -/
def State.creditWaitExpiry (s : State) : State :=
  if s.loop.creditWait.isSome then
    ({ s with loop := { s.loop with creditWait := none } }).work (fun e j => j.raise e .lineStalled)
  else s

/-! ## Forwarded queues (R8 to R10) -/

/-- Remove the oldest SAMPLE cell of a queue, if it holds one. -/
def dropSample : List (List Byte) → Option (List (List Byte))
  | [] => none
  | x :: xs => if cellKind x = kindSample then some xs else (dropSample xs).map (x :: ·)

/-- R9: the cell may displace a SAMPLE cell. -/
def displaces (bs : List Byte) : Bool :=
  cellKind bs == kindSample || cellKind bs == kindStatus || cellKind bs == kindMgmtRsp

/-- R8, R9: a cell offered to the L-port forwarded queue; the mark says whether a cell was displaced or discarded. -/
def Loop.offerL (bs : List Byte) (l : Loop) : Loop × Bool :=
  if l.lQueue.length < Config.lQueueMax then ({ l with lQueue := l.lQueue ++ [bs] }, false)
  else if displaces bs then
    match dropSample l.lQueue with
    | some rest => ({ l with lQueue := rest ++ [bs] }, true)
    | none => (l, true)
  else (l, true)

/-- R10: a cell offered to the F-port forwarded queue; the mark says whether it was discarded. -/
def Loop.offerF (bs : List Byte) (l : Loop) : Loop × Bool :=
  if l.fQueue.length < Config.fQueueMax then ({ l with fQueue := l.fQueue ++ [bs] }, false) else (l, true)

/-- A cell displaced or discarded counts (counter 7). -/
def Jobs.countDisplaced (lost : Bool) (j : Jobs) : Jobs :=
  if lost then j.count (fun c => { c with displaced7 := c.displaced7 + 1#32 }) else j

/-- A cell offered to the forwarded queue of a port. -/
def State.offer (p : Port) (bs : List Byte) (s : State) : State :=
  let r := match p with
    | .line => s.loop.offerL bs
    | .field => s.loop.offerF bs
  { s with loop := r.1, jobs := s.jobs.countDisplaced r.2 }

/-! ## Credits (R12, R13) -/

/-- R12: the count after a GRANT item; none where the cell is discarded. -/
def creditAfter (credits : Nat) (s : Slot) : Option Nat :=
  if s.field1 = 0 ∨ 15 < s.field1 then none
  else if s.field2 = 0 then some (min Config.creditMax (credits + s.field1))
  else if s.field2 = 1 then some s.field1
  else none

/-- R12: a CREDIT cell taken. -/
def State.takeCredit (bs : List Byte) (s : State) : State :=
  match (slotsWith 0x41 bs).head?.bind (creditAfter s.loop.credits) with
  | some n => { s with loop := { s.loop with credits := n } }
  | none => s.tally (Jobs.countBad .line)

/-! ## The L-port arbiter (R13, R15 to R18) -/

/-- R18, R165: a REPORT cell of the items of a report cell. -/
def reportCell (own : Nat) (urgent : Bool) (c : ReportCell) : List Byte :=
  buildCell kindReport Config.lineMaster own urgent (c.items.map ReportItem.slot)

/-- R13, R14: an L-port send begins: a credit is spent, the transmitter is busy with the cell, and LINE_STALLED is
cleared. At an urgent send the fresh urgent cell is packed (R167) before LINE_STALLED is cleared; the spec gives no order
(log 26). -/
def State.lineSend (bs : List Byte) (f : Tele → TeleEnv → Tele) (s : State) : State :=
  ({ s with loop := { s.loop with lTx := some bs, credits := s.loop.credits - 1 } }).work
    (fun e j => (j.tele' (fun v t => f t v) e).clear e .lineStalled)

/-- R16: the urgent cell is sent. -/
def State.sendUrgent (s : State) : State :=
  ({ s with loop := { s.loop with streak := if s.routineWaits then s.loop.streak + 1 else 0 } }).lineSend
    (reportCell s.env.set.general.ownAddress true s.jobs.tele.urgent) (fun t v => t.urgentSent v)

/-- R17: the open cell is sent. -/
def State.sendReport (s : State) : State :=
  ({ s with loop := { s.loop with streak := 0, turn := .forward } }).lineSend
    (reportCell s.env.set.general.ownAddress false s.jobs.tele.opened) (fun t v => t.openedSent v)

/-- R17, R8: the head of the L-port forwarded queue is sent (counter 5). -/
def State.sendForwarded (bs : List Byte) (rest : List (List Byte)) (s : State) : State :=
  (({ s with loop := { s.loop with streak := 0, turn := .report, lQueue := rest } }).tally
    (Jobs.count (fun c => { c with forwarded5Up := c.forwarded5Up + 1#32 }))).lineSend bs (fun t _ => t)

/-- R17: the routine choice. -/
def State.sendRoutine (s : State) : State :=
  match s.loop.lQueue with
  | bs :: rest =>
      if s.jobs.tele.opened.ready && s.loop.turn == .report then s.sendReport else s.sendForwarded bs rest
  | [] => s.sendReport

/-- R15 to R17: the L-port arbiter begins a send, when its transmitter is idle, a credit stands and a candidate waits. -/
def State.lineArbiter (s : State) : State :=
  if s.loop.lTx.isNone && decide (0 < s.loop.credits) && s.candidateWaits then
    if s.jobs.tele.urgent.ready && !(s.loop.streak == Config.streakMax && s.routineWaits) then s.sendUrgent
    else s.sendRoutine
  else s

/-! ## The F-port arbiter (R19) -/

/-- R19: the COMMAND cell of an issued command. -/
def commandCell (set : Settings) (i : Nat) (a : Action) : List Byte :=
  buildCell kindCommand (set.act i).address set.general.ownAddress false [a.slot]

/-- R19, R71: the F-port arbiter begins a send, when its transmitter is idle: a ready command, or else the head of the
F-port forwarded queue (counter 6). -/
def State.fieldArbiter (s : State) : State :=
  if s.loop.fTx.isSome then s
  else
    match s.jobs.ready with
    | some (i, a, o) =>
        ({ s with loop := { s.loop with fTx := some (commandCell s.env.set i a) } }).work (fun e j => j.issue e i a o)
    | none =>
        match s.loop.fQueue with
        | bs :: rest =>
            ({ s with loop := { s.loop with fTx := some bs, fQueue := rest } }).tally
              (Jobs.count (fun c => { c with forwarded6Down := c.forwarded6Down + 1#32 }))
        | [] => s

/-- R1: a transmit completion: the port's transmitter becomes idle. -/
def State.transmitted (p : Port) (s : State) : State :=
  match p with
  | .field => { s with loop := { s.loop with fTx := none } }
  | .line => { s with loop := { s.loop with lTx := none } }

/-! ## The F-port bad run (R3) -/

/-- R3: a bad cell at a port; at the F-port the bad run rises, and LOOP_NOISE is raised when it reaches 16. -/
def State.badArrival (p : Port) (s : State) : State :=
  let s := s.tally (Jobs.countBad p)
  match p with
  | .line => s
  | .field =>
      let s' := { s with loop := { s.loop with badRun := min Config.badRunMax (s.loop.badRun + 1) } }
      if s.loop.badRun + 1 = Config.badRunMax then s'.work (fun e j => j.raise e .loopNoise) else s'

/-- R2, R3: a good cell at a port counts as received; at the F-port it ends the bad run and clears LOOP_NOISE. -/
def State.goodArrival (p : Port) (s : State) : State :=
  match p with
  | .line => s.tally (Jobs.count (fun c => { c with received2L := c.received2L + 1#32 }))
  | .field =>
      (({ s with loop := { s.loop with badRun := 0 } }).tally
        (Jobs.count (fun c => { c with received1F := c.received1F + 1#32 }))).work (fun e j => j.clear e .loopNoise)

/-! ## The shape of a command -/

/-- A command on a part that has power: what an earlier settling left is taken first (log 2), then the command, then the
CREDIT_WAIT timer follows (R14). Without power nothing happens. -/
def State.powerCommand (f : State → State) (s : State) : State :=
  if s.powered then (f (s.withPart (s.env, s.jobs.settle s.env))).creditWatch else s

end Sys2Proof.Machine
end

