-- ==== Sys2Proof/Machine/Records.lean ====
section
/-!
DEFINITION. What management reads (spec/11 R175): the field groups of the tables and of the records.
-/

namespace Sys2Proof.Machine

/-! ## Fields as bytes -/

/-- A number in `w` bytes, most significant first. -/
def natBytes : Nat → Nat → List Byte
  | 0, _ => []
  | w + 1, n => byteOf (n / 256 ^ w) :: natBytes w n

/-- A signed number in `w` bytes, two's complement. -/
def intBytes (w : Nat) (v : Int) : List Byte := natBytes w (v % (256 ^ w : Nat)).toNat

/-- An optional unsigned field: absent as the largest value of its width. -/
def optBytes (w : Nat) (v : Option Nat) : List Byte := natBytes w (v.getD (256 ^ w - 1))

/-- An optional signed field: absent as the smallest value of its width. -/
def optIntBytes (w : Nat) (v : Option Int) : List Byte := intBytes w (v.getD (-(256 ^ w / 2 : Nat)))

/-- A set-or-clear field. -/
def markByte (b : Bool) : List Byte := natBytes 1 b.toNat

/-- A time of week: the minute, then the second. -/
def timeBytes (t : Option TimeOfWeek) : List Byte := optBytes 2 (t.map (·.minute)) ++ optBytes 1 (t.map (·.second))

/-- A timer: the seconds to its expiry. -/
def timerBytes (e : Env) (t : Timer) : List Byte := optBytes 2 (e.left t)

/-- A group of 8 bytes; bytes not named are sent as 0. -/
def group8 (fields : List (List Byte)) : List Byte := (fields.flatten ++ List.replicate 8 0#8).take 8

/-- The groups that a record's fields fill, none split (R175): `got` are the fields of the group being filled. -/
def fillGroups : List (List Byte) → List (List Byte) → List (List (List Byte))
  | got, [] => if got.isEmpty then [] else [got]
  | got, f :: rest =>
      if got.flatten.length + f.length ≤ 8 then fillGroups (got ++ [f]) rest else got :: fillGroups [f] rest

/-- The groups of a record. -/
def recordGroups (fields : List (List Byte)) : List (List Byte) := (fillGroups [] fields).map group8

/-! ## Tables -/

/-- Table ids (spec/01 R20). -/
inductive Table where
  | general | heads | actuators | tariff | strapping | guard | zones | allotment | policy | conditions
  deriving DecidableEq, Repr

/-- The table of an id (spec/01 R20). -/
def tableOf : Nat → Option Table
  | 1 => some .general
  | 2 => some .heads
  | 3 => some .actuators
  | 4 => some .tariff
  | 5 => some .strapping
  | 6 => some .guard
  | 7 => some .zones
  | 8 => some .allotment
  | 9 => some .policy
  | 10 => some .conditions
  | _ => none

/-- R175: the group of a GENERAL entry. -/
def readGeneral (s : Settings) (group : Nat) : Option (List (List Byte)) :=
  let g := s.general
  match group with
  | 0 => some [natBytes 1 g.ownAddress, natBytes 1 g.packHold, natBytes 1 g.ackTimeout, natBytes 1 g.clockStaleHours,
      natBytes 2 g.creditWait, natBytes 2 g.valveTravel]
  | 1 => some [natBytes 2 g.agreeTol, natBytes 2 g.disagreeHold, natBytes 2 g.tankHeight, natBytes 2 g.operatorHoldLimit]
  | 2 => some [natBytes 2 g.minRest, natBytes 2 g.proveTime, natBytes 2 g.minFlow, natBytes 1 g.fillMargin,
      markByte s.lock]
  | 3 => some [natBytes 4 g.restartDeficit, natBytes 2 g.reserveMm, natBytes 2 g.reserveHyst]
  | _ => none

/-- R175: the group of the HEADS entry of address `a`. -/
def readHead (e : Env) (j : Jobs) (a group : Nat) : Option (List (List Byte)) :=
  let h := e.set.head a
  let r := e.head a
  match group with
  | 0 => some [natBytes 1 h.kind.code, natBytes 1 h.role, markByte h.absorb, markByte h.enabled, natBytes 2 h.staleLimit,
      natBytes 2 h.pulse]
  | 1 => some [natBytes 2 h.zero, natBytes 2 h.span, natBytes 2 h.fullScale, natBytes 2 h.mount]
  | 2 => some [natBytes 1 r.state.code,
      natBytes 1 (r.clamped.toNat + 2 * (j.suspects.getD (a - 1) false).toNat + 4 * r.faultCode.isSome.toNat),
      natBytes 1 (r.faultCode.getD 0), optIntBytes 4 r.lastValue]
  | 3 => some [natBytes 4 r.samples.toNat, timeBytes r.lastArrival]
  | _ => none

/-- R175: the group of a ZONES entry 0..3; the probe address is 0 when there is none (R119). -/
def readZone (s : Settings) (z group : Nat) : Option (List (List Byte)) :=
  let x := s.zone z
  match group with
  | 0 => some [optBytes 1 x.heater, natBytes 1 x.mode.code, markByte x.compensated, natBytes 1 x.h, intBytes 2 x.b1,
      intBytes 2 x.b2]
  | 1 => some [intBytes 2 x.b3, intBytes 2 x.b4, intBytes 2 x.freezeAt, natBytes 1 ((s.probe z).getD 0)]
  | 2 => some [natBytes 1 x.d0, natBytes 1 x.d1, natBytes 1 x.d2, natBytes 1 x.d3, natBytes 1 x.d4]
  | _ => none

/-- R175: the group of the shared part of the ZONES table, entry 4. -/
def readShared (x : SharedSettings) (group : Nat) : Option (List (List Byte)) :=
  match group with
  | 0 => some [intBytes 2 x.pivot, natBytes 1 x.cUp.code, natBytes 1 x.cDn.code, natBytes 2 x.stagnantAfter,
      natBytes 1 x.stagnationOffset, natBytes 1 x.dutyStep]
  | 1 => some [natBytes 2 x.stirFlow, natBytes 2 x.heatProve]
  | _ => none

/-- R175: the group of a POLICY entry. -/
def readPolicy (s : Settings) (t : Tele) (i group : Nat) : Option (List (List Byte)) :=
  let p := s.policy.getD i .factory
  let r := t.policy i
  match group with
  | 0 => some [natBytes 1 p.quantity, natBytes 2 p.minInterval, natBytes 4 p.deadband]
  | 1 => some [natBytes 4 p.maxInterval]
  | 2 => some [optIntBytes 4 r.last, markByte r.due, timeBytes r.lastTime]
  | _ => none

/-- R175: the group of an entry of a table, none where the entry or the group does not exist. What is read as the alert enable
of a ROUTINE kind, which has none (R156), is not stated: 0 is sent (log 8). -/
def readTable (e : Env) (j : Jobs) (t : Table) (i group : Nat) : Option (List (List Byte)) :=
  let s := e.set
  match t with
  | .general => if i = 0 then readGeneral s group else none
  | .heads => if 1 ≤ i ∧ i ≤ Config.headCount then readHead e j i group else none
  | .actuators =>
      let a := s.act i
      if i < Config.actuatorCount ∧ group = 0 then
        some [natBytes 1 a.address, natBytes 1 a.kind.code, markByte a.manual, markByte a.governed, natBytes 2 a.rated,
          natBytes 2 a.nominalFlow]
      else none
  | .tariff =>
      let w := s.tariff.getD i .factory
      if 16 ≤ i then none
      else if group = 0 then
        some [markByte w.used, natBytes 1 w.band.code, natBytes 2 w.start, natBytes 2 w.stop, natBytes 2 w.cap]
      else if group = 1 then some [natBytes 2 w.target]
      else none
  | .strapping =>
      let p := s.points.getD i ⟨0, 0⟩
      if i < 12 ∧ group = 0 then some [natBytes 2 p.level, natBytes 4 p.volume]
      else if i = 0 ∧ group = 1 then some [natBytes 1 s.pointsInUse]
      else none
  | .guard =>
      let g := s.guard
      if i ≠ 0 then none
      else if group = 0 then some [natBytes 2 g.high, natBytes 2 g.hihi, natBytes 2 g.trip, natBytes 2 g.drainClose]
      else if group = 1 then some [natBytes 2 g.hyst, intBytes 2 g.iceSuspect, optBytes 1 g.housingA, optBytes 1 g.housingB]
      else none
  | .zones => if i < 4 then readZone s i group else if i = 4 then readShared s.shared group else none
  | .allotment => if i = 0 ∧ group = 0 then some [natBytes 2 s.siteLimit, natBytes 2 s.defaultCap] else none
  | .policy => if i < 24 then readPolicy s j.tele i group else none
  | .conditions =>
      if group ≠ 0 then none
      else if i < 22 then some [markByte (s.alerts.enables.getD i false)]
      else if i = 22 then some [natBytes 1 s.alerts.mode.code, natBytes 1 s.alerts.pulseStep]
      else none

/-! ## Records -/

/-- A gauge level: the level, then its clamped mark (spec/03 R39). -/
def gaugeBytes (g : Option GaugeLevel) : List Byte := optBytes 2 (g.map (·.level)) ++ optBytes 1 (g.map (·.mark.toNat))

/-- The Level Record (spec/03 R39). -/
def levelFields (e : Env) (r : LevelRecord) : List (List Byte) :=
  [gaugeBytes r.gaugeA, gaugeBytes r.gaugeB, natBytes 1 r.fusion.code, natBytes 2 r.fill, natBytes 2 r.guard,
    markByte r.aged, natBytes 4 r.volume, markByte r.overRange, timerBytes e r.split, timeBytes r.lastChange]

/-- The Fill Plan (spec/05 R88). -/
def fillFields (p : FillPlan) : List (List Byte) :=
  [natBytes 1 p.mode.code, optBytes 1 (p.window.map (·.1)), optBytes 1 (p.window.map (·.2.code)),
    optBytes 2 p.targetLevel, optBytes 4 p.targetVolume, natBytes 4 p.deficit, natBytes 2 p.learned, natBytes 2 p.flowUsed,
    natBytes 2 p.needed, optBytes 2 p.remaining, optBytes 2 p.mustStart, optBytes 1 p.lead, markByte p.shortfall,
    markByte p.topped, markByte p.committed, markByte p.reserve, optBytes 2 p.inletFlow, optBytes 2 p.outletFlow]

/-- The Tariff State (spec/05 R86). -/
def tariffFields (c : Clock) : List (List Byte) :=
  [natBytes 1 c.state.code, natBytes 1 c.tariff.band.code, optBytes 1 (c.tariff.window.map (·.index)),
    optBytes 2 (c.tariff.window.map (·.start)), optBytes 2 (c.tariff.window.map (·.stop)), natBytes 2 c.tariff.cap,
    optBytes 2 c.tariff.target]

/-- An optional field that carries no value of its own: 1 while present (R175), absent as the largest value (log 8). -/
def presentByte (b : Bool) : List Byte := optBytes 1 (if b then some 1 else none)

/-- A Claim Record (spec/08 R138): its consumer, then its fields; those that a consumer of its kind does not hold stand
as after a reset (log 8). -/
def claimFields (consumer : Nat) (c : Claim) : List (List Byte) :=
  [natBytes 1 consumer, natBytes 1 c.cls.code, natBytes 2 c.requested, natBytes 2 c.granted, markByte c.incumbent,
    natBytes 1 c.fillClass.code ++ natBytes 2 c.fillUnits, presentByte c.operator,
    natBytes 1 c.postedClass.code ++ natBytes 2 c.postedUnits]

/-- A zone record (spec/07 R121). -/
def zoneFields (e : Env) (z : Zone) : List (List Byte) :=
  [optIntBytes 2 z.probe, optIntBytes 2 z.tEff, markByte z.atRisk, natBytes 1 z.state.code, optBytes 1 z.segment,
    optIntBytes 2 z.anchor, natBytes 1 z.curve, natBytes 1 z.claimClass.code ++ natBytes 2 z.claimUnits,
    natBytes 1 z.grant, natBytes 1 z.grantedDuty, optBytes 1 z.commandedDuty, markByte z.retry,
    natBytes 1 z.proving.code, natBytes 1 z.expected, timerBytes e z.timer]

/-- A commanded state or settled command: its code, then its duty (R175). -/
def commandedBytes (c : Commanded) : List Byte := natBytes 1 c.code ++ natBytes 1 c.dutyPart

/-- An operator hold: its start time, then its hold timer (R175). -/
def holdBytes (e : Env) (h : Option Hold) : List Byte :=
  timeBytes (h.map (·.start)) ++ timerBytes e (h.map (·.timer))

/-- An actuator's runtime record (spec/04 R61). -/
def actFields (e : Env) (commanded : Commanded) (a : ActRuntime) : List (List Byte) :=
  [commandedBytes commanded, commandedBytes a.settled,
    natBytes 1 a.reported.code.code ++ natBytes 1 a.reported.duty ++ natBytes 1 a.reported.units,
    natBytes 1 a.resp.code, natBytes 1 a.fault.code, markByte a.discord, holdBytes e a.hold, presentByte a.parked.isSome,
    timerBytes e a.rest, natBytes 4 a.runMinutes.toNat ++ natBytes 1 a.runSeconds]

/-- A Condition Table entry's runtime fields (spec/09 R148). Whether the reading of an URGENT kind has a byte for the queued
mark, a field of ROUTINE kinds only, is not stated: it is sent, as 0 (log 8). -/
def condFields (c : Cond) : List (List Byte) :=
  [markByte c.active, markByte c.acked, natBytes 1 c.occurrences, markByte c.pending, markByte c.queued,
    timeBytes c.first, timeBytes c.last]

/-- The fourteen counters in order (R180). -/
def counterList (j : Jobs) : List Count :=
  let c := j.counters
  [c.received1F, c.received2L, c.bad3F, c.bad4L, c.forwarded5Up, c.forwarded6Down, c.displaced7, j.tele.dropped,
    c.issued9, c.ackTimeouts10, c.refusals11, c.discarded12, c.clockJumps13, c.stores14]

/-- The fields of record `id` at an index, none where the record has no such index (R175). -/
def recordFields (e : Env) (j : Jobs) (id i : Nat) : Option (List (List Byte)) :=
  match id with
  | 1 => if i = 0 then some (levelFields e j.level) else none
  | 2 => if i = 0 then some (fillFields j.fill) else none
  | 3 => if i = 0 then some (tariffFields e.clock) else none
  | 4 =>
      if i < 6 then some (claimFields i (j.claim i))
      else if i = 6 then some [natBytes 2 j.power.cap, natBytes 2 j.power.total] else none
  | 5 => if i < 4 then some (zoneFields e (j.zone i)) else none
  | 6 => if i < Config.actuatorCount then some (actFields e (j.commanded i) (j.act i)) else none
  | 7 => match condKinds[i]? with
      | some k => some (condFields (j.tele.cond k))
      | none => none
  | 8 => if i = 0 then some ((counterList j).map (fun c => natBytes 4 c.toNat)) else none
  | _ => none

/-- The 8 bytes of a field group of a table entry. -/
def entryGroup (e : Env) (j : Jobs) (t : Table) (i group : Nat) : Option (List Byte) :=
  (readTable e j t i group).map group8

/-- The 8 bytes of a field group of a record. -/
def recordGroup (e : Env) (j : Jobs) (id i group : Nat) : Option (List Byte) :=
  ((recordFields e j id i).map recordGroups).bind (fun gs => gs[group]?)

end Sys2Proof.Machine
end

