-- ==== Sys2Proof/Machine/Writes.lean ====
section
/-!
DEFINITION. What management writes (spec/11 R176): the checks of a field group, the settings it leaves, and what its owner
does when told.
-/

namespace Sys2Proof.Machine

/-! ## The bytes of a group -/

/-- An unsigned field of `w` bytes at offset `i`, most significant byte first. -/
def fieldAt (d : List Byte) (i w : Nat) : Nat := ((d.drop i).take w).foldl (fun n b => n * 256 + b.toNat) 0

/-- A signed field of two bytes at offset `i`. -/
def signedAt (d : List Byte) (i : Nat) : Int :=
  if fieldAt d i 2 < 32768 then (fieldAt d i 2 : Int) else (fieldAt d i 2 : Int) - 65536

/-- A set-or-clear field: 0 or 1. -/
def markAt (d : List Byte) (i : Nat) : Option Bool :=
  match fieldAt d i 1 with
  | 0 => some false
  | 1 => some true
  | _ => none

/-- An index written as a byte: 255 is none; an index at or above the bound is out of range. -/
def indexAt (d : List Byte) (i bound : Nat) : Option (Option Nat) :=
  if fieldAt d i 1 = 255 then some none else if fieldAt d i 1 < bound then some (some (fieldAt d i 1)) else none

/-- The value lies in a range. -/
def within (lo hi n : Nat) : Bool := decide (lo ≤ n ∧ n ≤ hi)

/-- A temperature setting lies in −600..1270. -/
def tempOk (t : Int) : Bool := decide (-600 ≤ t ∧ t ≤ 1270)

/-- A group is taken when its checks pass. -/
def taken {α : Type} (ok : Bool) (a : α) : Option α := if ok then some a else none

/-! ## Checks of whole tables -/

/-- R103: the guard ordering, with the tank height. -/
def GuardSettings.ordered (g : GuardSettings) (tank : Nat) : Bool :=
  decide (g.high < g.hihi ∧ g.hihi < g.trip ∧ g.trip ≤ tank ∧ g.drainClose ≤ g.high)

/-- R89, R103: the reserve lies below HIGH_MM. -/
def reserveOk (g : General) (high : Nat) : Bool := decide (g.reserveMm + g.reserveHyst < high)

/-- R22, R24: the role is in the range given for the kind. -/
def roleOk (k : HeadKind) (role : Nat) : Bool :=
  match k with
  | .probe => decide (role ≤ 3)
  | .heater => decide (role ≤ 3)
  | .pump => within 1 2 role
  | _ => true

/-- R24: two heads that may not both be known. -/
def headsClash (a b : HeadSettings) : Bool :=
  a.enabled && b.enabled && a.kind == b.kind
    && (match a.kind with
      | .service => false
      | .other => false
      | .probe => a.role == b.role
      | .heater => a.role == b.role
      | .pump => a.role == b.role
      | _ => true)

/-- No two different entries of a list stand in a relation. -/
def noPair {α : Type} (clash : α → α → Bool) : List α → Bool
  | [] => true
  | x :: xs => xs.all (fun y => !clash x y) && noPair clash xs

/-- R60: the Actuator Table's own checks. -/
def actuatorsOk (l : List ActSettings) : Bool :=
  let used := l.filter ActSettings.inUse
  let number := fun (k : ActKind) => (used.filter (fun a => a.kind == k)).length
  noPair (fun a b => a.address == b.address) used && decide (number .pump ≤ 2) && decide (number .valveInlet ≤ 1)
    && decide (number .valveDrain ≤ 1) && decide (number .heater ≤ 4)

/-- R60: the rated units are in the range of the kind; valves do not read them. -/
def ratedOk (k : ActKind) (rated : Nat) : Bool :=
  match k with
  | .pump => within 1 1000 rated
  | .heater => within 1 200 rated
  | .valveInlet => true
  | .valveDrain => true

/-- R52, R56: the strapping order on a run of points, but for its first level and its last. -/
def rising : List Point → Bool
  | p :: q :: rest => decide (p.level < q.level ∧ p.volume ≤ q.volume) && rising (q :: rest)
  | _ => true

/-- The level of the last in-use point. -/
def Settings.lastPoint (s : Settings) : Nat := (s.points.getD (s.pointsInUse - 1) ⟨0, 0⟩).level

/-- R52: the strapping order of the in-use points. -/
def Settings.strappingOk (s : Settings) : Bool :=
  (s.points.getD 0 ⟨0, 0⟩).level == 0 && rising (s.points.take s.pointsInUse)
    && decide (s.lastPoint ≤ s.general.tankHeight)

/-- R119: the boundaries fall. -/
def ZoneSettings.falling (z : ZoneSettings) : Bool := decide (z.b2 < z.b1 ∧ z.b3 < z.b2 ∧ z.b4 < z.b3)

/-- R119: no two zones name one heater. -/
def heatersOk (l : List ZoneSettings) : Bool :=
  noPair (fun a b => a.heater.isSome && a.heater == b.heater) l

/-! ## Writes of each table -/

/-- R176, R51, R89: a GENERAL group. -/
def writeGeneral (s : Settings) (group : Nat) (d : List Byte) : Option Settings :=
  let g := s.general
  match group with
  | 0 =>
      let new := { g with
        ownAddress := fieldAt d 0 1, packHold := fieldAt d 1 1, ackTimeout := fieldAt d 2 1,
        clockStaleHours := fieldAt d 3 1, creditWait := fieldAt d 4 2, valveTravel := fieldAt d 6 2 }
      taken ((within 48 61 new.ownAddress || new.ownAddress == 63) && within 0 10 new.packHold
        && within 1 30 new.ackTimeout && within 1 48 new.clockStaleHours && within 5 300 new.creditWait
        && within 10 600 new.valveTravel) { s with general := new }
  | 1 =>
      let new := { g with
        agreeTol := fieldAt d 0 2, disagreeHold := fieldAt d 2 2, tankHeight := fieldAt d 4 2,
        operatorHoldLimit := fieldAt d 6 2 }
      taken (within 0 2000 new.agreeTol && within 10 900 new.disagreeHold && within 500 30000 new.tankHeight
        && within 60 14400 new.operatorHoldLimit && decide (s.lastPoint ≤ new.tankHeight)
        && s.guard.ordered new.tankHeight) { s with general := new }
  | 2 =>
      let new := { g with
        minRest := fieldAt d 0 2, proveTime := fieldAt d 2 2, minFlow := fieldAt d 4 2, fillMargin := fieldAt d 6 1 }
      taken (within 0 1800 new.minRest && within 10 300 new.proveTime && within 1 65535 new.minFlow
        && within 0 240 new.fillMargin) { s with general := new }
  | _ =>
      let new := { g with
        restartDeficit := fieldAt d 0 4, reserveMm := fieldAt d 4 2, reserveHyst := fieldAt d 6 2 }
      taken (within 0 4000000 new.restartDeficit && within 0 30000 new.reserveMm && within 10 5000 new.reserveHyst
        && reserveOk new s.guard.high) { s with general := new }

/-- R176, R22, R24: a HEADS group of address `a`; groups 2 and 3 are read-only. -/
def writeHead (s : Settings) (a group : Nat) (d : List Byte) : Option Settings :=
  let put := fun (h : HeadSettings) => { s with heads := updateAt (fun _ => h) (a - 1) s.heads }
  let h := s.head a
  match group with
  | 0 =>
      match headKindOf (fieldAt d 0 1), markAt d 2, markAt d 3 with
      | some k, some absorb, some enabled =>
          let new := { h with
            kind := k, role := fieldAt d 1 1, absorb := absorb, enabled := enabled, staleLimit := fieldAt d 4 2,
            pulse := fieldAt d 6 2 }
          taken (roleOk k new.role && within 5 600 new.staleLimit && within 1 10000 new.pulse
            && noPair headsClash (put new).heads) (put new)
      | _, _, _ => none
  | _ =>
      let new := { h with
        zero := fieldAt d 0 2, span := fieldAt d 2 2, fullScale := fieldAt d 4 2, mount := fieldAt d 6 2 }
      taken (within 0 65534 new.zero && within 1 65535 new.span && within 1 30000 new.fullScale
        && within 1 30000 new.mount) (put new)

/-- R176, R60: an ACTUATORS entry. -/
def writeActuator (s : Settings) (i : Nat) (d : List Byte) : Option Settings :=
  match actKindOf (fieldAt d 1 1), markAt d 2, markAt d 3 with
  | some k, some manual, some governed =>
      let new : ActSettings :=
        { address := fieldAt d 0 1, kind := k, manual := manual, governed := governed, rated := fieldAt d 4 2,
          nominalFlow := fieldAt d 6 2 }
      let l := updateAt (fun _ => new) i s.actuators
      taken (within 0 47 new.address && ratedOk k new.rated && actuatorsOk l) { s with actuators := l }
  | _, _, _ => none

/-- R176, R85: a TARIFF group. -/
def writeTariff (s : Settings) (i group : Nat) (d : List Byte) : Option Settings :=
  let put := fun (w : TariffEntry) => { s with tariff := updateAt (fun _ => w) i s.tariff }
  let w := s.tariff.getD i .factory
  match group with
  | 0 =>
      match markAt d 0, bandOf (fieldAt d 1 1) with
      | some used, some band =>
          let new := { w with
            used := used, band := band, start := fieldAt d 2 2, stop := fieldAt d 4 2, cap := fieldAt d 6 2 }
          taken (within 0 10079 new.start && within 0 10079 new.stop && within 0 1000 new.cap
            && !(new.used && new.start == new.stop)) (put new)
      | _, _ => none
  | _ => taken (within 0 30000 (fieldAt d 0 2)) (put { w with target := fieldAt d 0 2 })

/-- R176, R54 to R56: a STRAPPING group: a point, or the points-in-use count. A point at or above the count is not
checked against the order. -/
def writeStrapping (s : Settings) (i group : Nat) (d : List Byte) : Option Settings :=
  match group with
  | 0 =>
      let new := { s with points := updateAt (fun _ => ⟨fieldAt d 0 2, fieldAt d 2 4⟩) i s.points }
      taken (within 0 30000 (fieldAt d 0 2) && within 0 4000000 (fieldAt d 2 4)
        && (decide (s.pointsInUse ≤ i) || new.strappingOk)) new
  | _ =>
      let new := { s with pointsInUse := fieldAt d 0 1 }
      taken (within 2 12 new.pointsInUse && new.strappingOk) new

/-- R176, R103: a GUARD group. -/
def writeGuard (s : Settings) (group : Nat) (d : List Byte) : Option Settings :=
  let g := s.guard
  match group with
  | 0 =>
      let new := { g with
        high := fieldAt d 0 2, hihi := fieldAt d 2 2, trip := fieldAt d 4 2, drainClose := fieldAt d 6 2 }
      taken (within 0 30000 new.high && within 0 30000 new.hihi && within 0 30000 new.trip
        && within 0 30000 new.drainClose && new.ordered s.general.tankHeight && reserveOk s.general new.high)
        { s with guard := new }
  | _ =>
      match indexAt d 4 4, indexAt d 5 4 with
      | some a, some b =>
          let new := { g with hyst := fieldAt d 0 2, iceSuspect := signedAt d 2, housingA := a, housingB := b }
          taken (within 10 500 new.hyst && decide (-300 ≤ new.iceSuspect ∧ new.iceSuspect ≤ 300))
            { s with guard := new }
      | _, _ => none

/-- R176, R119: a group of the ZONES entry of zone `z`. -/
def writeZone (s : Settings) (z group : Nat) (d : List Byte) : Option Settings :=
  let put := fun (x : ZoneSettings) => { s with zones := updateAt (fun _ => x) z s.zones }
  let x := s.zone z
  match group with
  | 0 =>
      match indexAt d 0 Config.actuatorCount, curveModeOf (fieldAt d 1 1), markAt d 2 with
      | some heater, some mode, some compensated =>
          let new := { x with
            heater := heater, mode := mode, compensated := compensated, h := fieldAt d 3 1, b1 := signedAt d 4,
            b2 := signedAt d 6 }
          taken (within 0 50 new.h && tempOk new.b1 && tempOk new.b2 && new.falling && heatersOk (put new).zones) (put new)
      | _, _, _ => none
  | 1 =>
      let new := { x with b3 := signedAt d 0, b4 := signedAt d 2, freezeAt := signedAt d 4 }
      taken (tempOk new.b3 && tempOk new.b4 && tempOk new.freezeAt && new.falling) (put new)
  | _ =>
      let new := { x with
        d0 := fieldAt d 0 1, d1 := fieldAt d 1 1, d2 := fieldAt d 2 1, d3 := fieldAt d 3 1, d4 := fieldAt d 4 1 }
      taken (within 0 100 new.d0 && within 0 100 new.d1 && within 0 100 new.d2 && within 0 100 new.d3
        && within 0 100 new.d4) (put new)

/-- R176, R120: a group of the shared part of the ZONES table. -/
def writeShared (s : Settings) (group : Nat) (d : List Byte) : Option Settings :=
  let x := s.shared
  match group with
  | 0 =>
      match airFactorOf (fieldAt d 2 1), airFactorOf (fieldAt d 3 1) with
      | some up, some dn =>
          let new := { x with
            pivot := signedAt d 0, cUp := up, cDn := dn, stagnantAfter := fieldAt d 4 2,
            stagnationOffset := fieldAt d 6 1, dutyStep := fieldAt d 7 1 }
          taken (tempOk new.pivot && within 30 1440 new.stagnantAfter && within 0 50 new.stagnationOffset
            && within 1 20 new.dutyStep) { s with shared := new }
      | _, _ => none
  | _ =>
      let new := { x with stirFlow := fieldAt d 0 2, heatProve := fieldAt d 2 2 }
      taken (within 1 65535 new.stirFlow && within 30 600 new.heatProve) { s with shared := new }

/-- R176, R159: a POLICY group; group 2 is read-only. -/
def writePolicy (s : Settings) (i group : Nat) (d : List Byte) : Option Settings :=
  let put := fun (p : PolicySettings) => { s with policy := updateAt (fun _ => p) i s.policy }
  let p := s.policy.getD i .factory
  match group with
  | 0 =>
      let new := { p with quantity := fieldAt d 0 1, minInterval := fieldAt d 1 2, deadband := fieldAt d 3 4 }
      taken (within 0 21 new.quantity && within 0 3600 new.minInterval && within 0 4000000 new.deadband) (put new)
  | _ =>
      let m := fieldAt d 0 4
      taken (m == 0 || within 10 86400 m) (put { p with maxInterval := m })

/-- R176, R156: a CONDITIONS entry; a ROUTINE kind has no alert enable to write. -/
def writeConditions (s : Settings) (i : Nat) (d : List Byte) : Option Settings :=
  if i = 22 then
    match alertModeOf (fieldAt d 0 1) with
    | some mode =>
        taken (within 0 7 (fieldAt d 1 1)) { s with alerts := { s.alerts with mode := mode, pulseStep := fieldAt d 1 1 } }
    | none => none
  else
    match markAt d 0 with
    | some enable =>
        taken (decide (i ≤ 8)) { s with alerts := { s.alerts with enables := updateAt (fun _ => enable) i s.alerts.enables } }
    | none => none

/-- R176: the settings that a group leaves, none where a check fails. -/
def writeTable (s : Settings) (t : Table) (i group : Nat) (d : List Byte) : Option Settings :=
  match t with
  | .general => writeGeneral s group d
  | .heads => writeHead s i group d
  | .actuators => writeActuator s i d
  | .tariff => writeTariff s i group d
  | .strapping => writeStrapping s i group d
  | .guard => writeGuard s group d
  | .zones => if i = 4 then writeShared s group d else writeZone s i group d
  | .allotment =>
      taken (within 0 1000 (fieldAt d 0 2) && within 0 1000 (fieldAt d 2 2))
        { s with siteLimit := fieldAt d 0 2, defaultCap := fieldAt d 2 2 }
  | .policy => writePolicy s i group d
  | .conditions => writeConditions s i d

/-- R175: the read-only field groups. -/
def readOnly (t : Table) (group : Nat) : Bool :=
  (t == .heads && decide (2 ≤ group)) || (t == .policy && group == 2)

/-- R174: the LOCKABLE tables; the others are OPEN. -/
def Table.lockable : Table → Bool
  | .tariff => false
  | .policy => false
  | .conditions => false
  | _ => true

/-! ## What the owners do (R176) -/

/-- The zones whose fitting or heater a write has changed are evaluated, in no set order (R122, log 1), and those it left
without their heater entries ask DUTY 0 of them (R132). -/
def Jobs.zonesWritten (e : Env) (before : Settings) (j : Jobs) : Jobs :=
  let moved := fun z => e.set.fitted z != before.fitted z || e.set.heater z != before.heater z
  (j.leaveHeaters e before).tell (([0, 1, 2, 3].filter moved).map Event.frostZone)

/-- R37: a HEADS write told to Intake and, for a pump's head, to the Power allotment, the Fill controller and the guard,
each as it is told an ACTUATORS write. Between the groups of tellings of one write the spec gives no order: the consumers of
the head's value come first, then the pump's tellings, then the zones (log 26). -/
def tellHeads (before : Settings) (a : Nat) (p : Part) : Part :=
  let q := headWritten a (before.head a) p
  let e := q.1
  let j := if pumpWrite (before.head a) (e.set.head a) then
      (q.2.incumbents e).tell [.pass, .fillFaults, .guardEval] else q.2
  (e, j.zonesWritten e before)

/-- R81: the unsent commands of entry `i` are removed and their origins told CANCELLED. -/
def Jobs.cancelUnsent (e : Env) (i : Nat) (j : Jobs) : Jobs :=
  let gone := j.queue.filter (fun x => x.isFor i)
  gone.foldl (fun j x => match x with
    | .cmd k a o => j.cancel e o k a
    | .fence _ => j) { j with queue := j.queue.filter (fun x => !x.isFor i) }

/-- R81: the In-Flight Table entry of `i` is abandoned: its origin is not told. -/
def Jobs.abandon (i : Nat) (j : Jobs) : Jobs :=
  { j with
    flight := j.flight.filter (fun f => f.idx != i)
    fill := { j.fill with stale := j.fill.stale.filter (fun x =>
      !(j.flight.any (fun f => f.idx == i && f.action == x.2 && x.1 == i))) } }

/-- An unsent FROST command for entry `i`, which a zone's record awaits (R132). -/
def Jobs.frostUnsent (i : Nat) (j : Jobs) : Bool :=
  j.queue.any (fun x => match x with
    | .cmd k _ o => k == i && o == .frost
    | .fence _ => false)

/-- R61, R81, R132: a change of head address, kind or issue mode. The operator claim withdrawn is that of the pump which the
entry was at the write (log 29). The run minutes stay only where the kind does; the record of an
entry then out of use is as after power-on. -/
def Jobs.entryChanged (e : Env) (before : Settings) (i : Nat) (j : Jobs) : Jobs :=
  let old := before.act i
  let new := e.set.act i
  let lost := j.frostUnsent i
  let j := ((j.cancelUnsent e i).abandon i).itemsLeft e
  let j := j.updateAct i (fun a => if new.inUse ∧ old.kind = new.kind then a.restart else .powerOn)
  let j := match before.pumpNumber i with
    | none => j
    | some n =>
        if (j.claim (n - 1)).operator then (j.updateClaim (n - 1) (fun c => { c with operator := false })).startPass else j
  let j := match (before.heaterZone i).or (e.set.heaterZone i) with
    | none => j
    | some z => j.updateZone z (Zone.entryMoved lost)
  if new.inUse && !new.manual then j.request e .start [.cmd i .query] else j

/-- The entry that is pump n with its rated units, none while the pump is absent. -/
def Settings.pumpUnits (s : Settings) (n : Nat) : Option (Nat × Nat) := (s.pump n).map (fun i => (i, (s.act i).rated))

/-- R139, R141: a write has changed a pump's rated units, or made a pump present or absent. -/
def pumpsMoved (before after : Settings) : Bool := [1, 2].any (fun n => after.pumpUnits n != before.pumpUnits n)

/-- An entry in use is a pump or a valve. -/
def ActSettings.guarded (a : ActSettings) : Bool := a.inUse && a.kind != .heater

/-- Whom an ACTUATORS write to an entry is told: the Power allotment where it touches a pump's units or presence (R139), the
Fill controller (R90), the guard where it touches a pump or a valve (R106), and the Frost unit (R134). -/
def actuatorTold (before after : Settings) (i : Nat) : List Event :=
  (if pumpsMoved before after then [.pass] else []) ++ [.fillFaults]
    ++ (if (before.act i).guarded || (after.act i).guarded then [.guardEval] else []) ++ [.frostFaults]

/-- R81: an ACTUATORS write told to the Actuator unit and to each job. A write to an entry that is and stays out of use
has no effect on its record. -/
def Jobs.actuatorWritten (e : Env) (before : Settings) (i : Nat) (j : Jobs) : Jobs :=
  let old := before.act i
  let new := e.set.act i
  let changed := old.address ≠ new.address ∨ old.kind ≠ new.kind ∨ old.manual ≠ new.manual
  let j := if changed ∧ (old.inUse ∨ new.inUse) then j.entryChanged e before i else j
  let j := ((j.lostTest e).incumbents e).tell (actuatorTold before e.set i)
  j.zonesWritten e before

/-- R103, R135: a GUARD write; a housing zone moved or set to none first clears its gauge's flag. -/
def Jobs.guardWritten (e : Env) (before : Settings) (j : Jobs) : Jobs :=
  let clear := fun (k : HeadKind) (was now : Option Nat) (j : Jobs) =>
    match e.set.knownKind k with
    | none => j
    | some a => if was.isSome && was != now then j.clearSuspect a else j
  let j := clear .gaugePressure before.guard.housingA e.set.guard.housingA j
  let j := clear .gaugeRanging before.guard.housingB e.set.guard.housingB j
  if before.guard.iceSuspect = e.set.guard.iceSuspect ∧ before.guard.housingA = e.set.guard.housingA
      ∧ before.guard.housingB = e.set.guard.housingB then j.post .guardEval
  else j.tell [.guardEval, .frostSuspect]

/-- R120: a write that changes a zone's mode, boundaries or duties takes its curve afresh. -/
def ZoneSettings.sameCurve (a b : ZoneSettings) : Bool :=
  a.mode == b.mode && a.b1 == b.b1 && a.b2 == b.b2 && a.b3 == b.b3 && a.b4 == b.b4 && a.d0 == b.d0 && a.d1 == b.d1
    && a.d2 == b.d2 && a.d3 == b.d3 && a.d4 == b.d4

/-- R120, R132: a ZONES write: the zones it touches are evaluated. The spec does not order the DUTY 0 for an entry that the write
has left and the zone's own evaluation; the DUTY 0 is asked first (log 26). -/
def Jobs.zoneWritten (e : Env) (before : Settings) (i : Nat) (j : Jobs) : Jobs :=
  if i = 4 then j.tell [.frostZone 0, .frostZone 1, .frostZone 2, .frostZone 3]
  else
    let j := if (before.zone i).sameCurve (e.set.zone i) then j
      else j.updateZone i (fun r => { r with segment := none, anchor := none })
    (j.leaveHeaters e before).post (.frostZone i)

/-- R162: a POLICY write on the entry's runtime record. -/
def Tele.policyWritten (v : TeleEnv) (old : PolicySettings) (i : Nat) (t : Tele) : Tele :=
  let new := v.policyAt i
  if old.quantity ≠ new.quantity then
    let t := { t with due := t.due.erase i }.updatePolicy i (fun _ => .powerOn)
    if new.quantity = 0 then t else (t.becomeDue i).pack v
  else if old.maxInterval ≠ new.maxInterval ∧ (t.policy i).maxTimer.isSome then
    t.updatePolicy i (fun p => { p with maxTimer := v.started new.maxInterval })
  else t

/-- R156, R157: a CONDITIONS write on the alert line. -/
def Tele.alertsWritten (v : TeleEnv) (old : AlertMode) (t : Tele) : Tele :=
  match old, v.alerts.mode with
  | .pulse, .level => { t with pulse := none }.deriveAlert v
  | .level, .level => t.deriveAlert v
  | .level, .pulse => { t with alert := false }
  | .pulse, .pulse => t

/-- R86, R137: an ALLOTMENT or TARIFF write: the Tariff State is derived and a change handed on. -/
def tariffWritten (p : Part) : Part := (p.1.derive, p.2.tariffChange p.1 p.1.derive)

/-- R176: the owner of a table is told of a write that has been taken; `before` are the settings before it. Of the two owners of
an ALLOTMENT group the Tariff clock is told first, then the Power allotment, and at a change of the Strapping Table in use (R57)
the recomputation comes before the telling of the Fill controller; the spec orders neither (log 26). -/
def ownerTold (t : Table) (i group : Nat) (before : Settings) (p : Part) : Part :=
  let e := p.1
  let j := p.2
  match t with
  | .general =>
      if group = 0 then p else if group = 1 then (e, j.post .recompute) else (e, j.post .fillEval)
  | .heads => tellHeads before i p
  | .actuators => (e, j.actuatorWritten e before i)
  | .tariff => tariffWritten p
  | .strapping =>
      if group = 0 ∧ before.pointsInUse ≤ i then p else (e, (j.post .recompute).post .fillEval)
  | .guard => (e, j.guardWritten e before)
  | .zones => (e, j.zoneWritten e before i)
  | .allotment => ((tariffWritten p).1, (tariffWritten p).2.post .cap)
  | .policy => (e, j.tele' (fun v t => t.policyWritten v (before.policy.getD i .factory) i) e)
  | .conditions => (e, j.tele' (fun v t => t.alertsWritten v before.alerts.mode) e)

/-- A write taken: the settings it leaves come into force, and their owner is told. -/
def takeWrite (t : Table) (i group : Nat) (new : Settings) (p : Part) : Part :=
  ownerTold t i group p.1.set ({ p.1 with set := new }, p.2)

end Sys2Proof.Machine
end

