-- ==== Sys2Proof/Machine/Reset.lean ====
section
/-!
DEFINITION. Power-on, restart and loss of power (spec/11 R177 to R179, and the reset rule of each chapter).
-/

namespace Sys2Proof.Machine

/-! ## What both resets do once taken -/

/-- R80: the START queries. -/
def Jobs.queryAll (e : Env) (j : Jobs) : Jobs := j.request e .start (startQueries e.set)

/-- The blocks' own first evaluations: the guard (R106, R116, R117), the cap and its pass (R147), and every zone, in no set
order (R136, log 1). -/
def Jobs.firstEvaluations (j : Jobs) : Jobs :=
  ((j.post .guardEval).post .cap).tell [.frostZone 0, .frostZone 1, .frostZone 2, .frostZone 3]

/-- Raise a kind when a test holds. -/
def Jobs.raiseWhen (e : Env) (k : CondKind) (holds : Bool) (j : Jobs) : Jobs := if holds then j.raise e k else j

/-- Once a reset is taken: the START queries, every policy entry that is not idle due (R171), the first evaluations, and
what they cause. -/
def Jobs.resetTaken (e : Env) (j : Jobs) : Jobs :=
  (((j.queryAll e).tele' (fun v t => t.allDue v) e).firstEvaluations).settle e

/-! ## Power-on (R179) -/

/-- The settings that a power-on loads: the stored image when its marker is complete, else the factory defaults. -/
def Store.loaded (s : Store) : Settings :=
  match s.image with
  | some image => if s.complete then image else .factory
  | none => .factory

/-- The stored image can be loaded: its marker is complete (R178, R179). -/
def Store.valid (s : Store) : Bool := s.complete && s.image.isSome

/-- Time, settings and heads at power-on (R38, R82, R83, R86). -/
def Env.atPowerOn (set : Settings) : Env :=
  let e : Env := { Env.powerOn with set := set }
  { e with heads := headsAtReset e false }.derive

/-- R58: the Level Record after power-on. -/
def LevelRecord.atPowerOn (e : Env) : LevelRecord :=
  { gaugeA := none, gaugeB := none, fusion := .blind, fill := 0, guard := 0, aged := true, volume := e.set.volumeAt 0,
    overRange := false, split := none, lastChange := none }

/-- The records as power-on sets them, before the reset is taken. -/
def Jobs.atPowerOn (e : Env) (store : Store) (choices : List Nat) : Jobs :=
  { Jobs.powerOn store with
    level := .atPowerOn e, guard := .powerOn e store.word, choices := choices }

/-- Power is applied (R179): each block takes its power-on state, the conditions of R155 and SETTINGS_LOST are raised. -/
def State.powerUp (s : State) : State :=
  let store := s.jobs.store.survive
  let e := Env.atPowerOn store.loaded
  let j := Jobs.atPowerOn e store s.jobs.choices
  let j := j.raise e .clockUnset
  let j := j.raiseWhen e .overflowTrip store.word
  let j := j.raiseWhen e .settingsLost (!store.valid)
  State.creditWatch
    { powered := true, pending := s.pending, loop := Loop.powerOn, env := e, jobs := j.resetTaken e }

/-- Power is lost (R177): all live state ceases; what the settings store holds survives. -/
def State.powerDown (s : State) : State :=
  let cold := State.unpowered s.jobs.store.survive
  { cold with pending := s.pending, jobs := { cold.jobs with choices := s.jobs.choices } }

/-! ## Restart (R178) -/

/-- Time, settings and heads at a restart: the time of week and the clock state are kept, and the Tariff State is derived
(R38, R82, R83, R86). -/
def Env.restarted (set : Settings) (e : Env) : Env :=
  let e : Env := { e with set := set }
  { e with heads := headsAtReset e true }.derive

/-- R155, R158, R171: the Condition and Report units at a restart, before anything is raised. -/
def Tele.restarted (v : TeleEnv) (unset : Bool) (t : Tele) : Tele :=
  let t := (t.condRestart v unset).refillUrgent
  let t := { t with
    alert := false, pulse := none, policies := List.replicate 24 .powerOn, due := [], notices := [], urgent := .empty,
    opened := .empty, ahead := none }
  (t.deriveAlert v).pack v

/-- R61, R80: the runtime record of entry `i` after a restart: the run minutes of a pump in use are kept. -/
def Settings.actRestart (s : Settings) (i : Nat) (a : ActRuntime) : ActRuntime :=
  if s.actInUse i && (s.act i).kind == .pump then a.restart else .powerOn

/-- The records at a restart, before the restart is taken; settings store, counters and order choices are kept. -/
def Jobs.restarted (e : Env) (j : Jobs) : Jobs :=
  { level := j.level.restart e
    suspects := List.replicate 47 false
    acts := (List.range Config.actuatorCount).map (fun i => e.set.actRestart i (j.act i))
    queue := []
    flight := []
    fill := j.fill.restart
    runs := List.replicate 2 Run.powerOn
    guard := j.guard.restart e
    frost := j.frost.restart
    power := { cap := 0, claims := List.replicate 6 Claim.powerOn }
    tele := j.tele
    store := j.store
    counters := j.counters
    work := []
    choices := j.choices }

/-- A restart with the settings given (R178): each block restarts, the notices of R155 are posted, CLOCK_STALE (R83) and
SETTINGS_LOST (R178) are raised where their causes stand. A Tariff State that the recalled settings change is handed on
(R87). A send under way goes on (R1). -/
def State.restart (set : Settings) (s : State) : State :=
  let e := s.env.restarted set
  let j := (s.jobs.restarted e).tele' (fun v t => (t.restarted v (e.clock.state == .unset)).repost v) e
  let j := j.raiseWhen e .clockStale (e.clock.state == .drifting)
  let j := j.raiseWhen e .settingsLost (!s.jobs.store.valid)
  { s with
    loop := { Loop.powerOn with lTx := s.loop.lTx, fTx := s.loop.fTx }
    env := e
    jobs := (j.tariffChange s.env e).resetTaken e }

end Sys2Proof.Machine
end

