-- ==== Sys2Proof/Machine/Management.lean ====
section
/-!
DEFINITION. The Management unit (spec/11): sources, the checks of R173, what each request does, its answer, and the
commands of the settings store.
-/

namespace Sys2Proof.Machine

/-! ## Requests (R172) -/

/-- The sources of management requests. -/
inductive Source where
  | line | local
  deriving DecidableEq, Repr

/-- R172: the source of a request that arrived at a port, none when it has none. -/
def sourceOf (s : Settings) (p : Port) (address : Nat) : Option Source :=
  match p with
  | .line => if address = Config.lineMaster then some .line else none
  | .field =>
      if s.known address && (s.head address).kind == .service then some .local else none

/-- A taken request: its port and source, its header slot and its data slots. -/
structure Request where
  port : Port
  source : Source
  /-- the source address of the cell -/
  address : Nat
  header : Slot
  data : List Slot
  deriving DecidableEq, Repr

/-- R172: the request of a MGMT_REQ cell, none where it is discarded. -/
def requestOf (s : Settings) (p : Port) (bs : List Byte) : Option Request :=
  match sourceOf s p (cellSource bs), cellSlots bs with
  | some src, h :: data => some { port := p, source := src, address := cellSource bs, header := h, data := data }
  | _, _ => none

/-- The request kind. -/
def Request.kind (r : Request) : Nat := r.header.requestKind

/-- The table or record id. -/
def Request.id (r : Request) : Nat := r.header.field1

/-- The entry index. -/
def Request.index (r : Request) : Nat := r.header.field2

/-- The field group. -/
def Request.group (r : Request) : Nat := r.header.group

/-- The 8 bytes of the two data slots. -/
def Request.bytes (r : Request) : List Byte := (r.data.flatMap Slot.bytes).take 8

/-- Result codes (spec/01 R20). -/
inductive Result where
  | done | isProtected | localOnly | badTable | badIndex | badValue | busy | notSafe
  deriving DecidableEq, Repr

/-- The code of a result. -/
def Result.code : Result → Nat
  | .done => 0
  | .isProtected => 1
  | .localOnly => 2
  | .badTable => 3
  | .badIndex => 4
  | .badValue => 5
  | .busy => 6
  | .notSafe => 7

/-! ## The checks (R173) -/

/-- R173 step 2: the request is kept to the local source. -/
def localKind (kind : Nat) : Bool := kind == 9 || kind == 10 || kind == 11

/-- R173 step 3: the table or record id is one of the known. -/
def idOk (r : Request) : Bool :=
  if r.kind = 1 ∨ r.kind = 2 then (tableOf r.id).isSome else if r.kind = 3 then within 1 8 r.id else true

/-- R173 step 4: the entry index and the field group exist. -/
def indexOk (e : Env) (j : Jobs) (r : Request) : Bool :=
  match r.kind with
  | 1 => (match tableOf r.id with | some t => (entryGroup e j t r.index r.group).isSome | none => false)
  | 2 => (match tableOf r.id with | some t => (entryGroup e j t r.index r.group).isSome | none => false)
  | 3 => (recordGroup e j r.id r.index r.group).isSome
  | 4 => decide (r.index ≤ 21)
  | 5 => decide (r.index ≤ 11)
  | _ => true

/-- R173 step 5: the requests that a STORE in flight turns away. -/
def busyKind (kind : Nat) : Bool :=
  kind == 2 || kind == 6 || kind == 7 || kind == 8 || kind == 9 || kind == 10

/-- R173 step 6, R174: protection fails. -/
def isGuarded (e : Env) (r : Request) : Bool :=
  match r.kind with
  | 2 =>
      (match tableOf r.id with
        | some t => readOnly t r.group || (r.source == .line && t.lockable && e.set.lock)
        | none => false)
  | 7 => r.source == .line && e.set.lock
  | _ => false

/-- R173 step 7, R176: the settings that a WRITE_ENTRY leaves, none where its values fail. -/
def Request.write (s : Settings) (r : Request) : Option Settings :=
  if r.data.length < 2 then none
  else match tableOf r.id with
    | some t => writeTable s t r.index r.group r.bytes
    | none => none

/-- R173: the first check that fails, in the order of its table. -/
def firstFailure (e : Env) (j : Jobs) (r : Request) : Option Result :=
  if !within 1 11 r.kind then some .badValue
  else if localKind r.kind && r.source == .line then some .localOnly
  else if !idOk r then some .badTable
  else if !indexOk e j r then some .badIndex
  else if busyKind r.kind && j.store.busy then some .busy
  else if isGuarded e r then some .isProtected
  else if r.kind = 2 ∧ r.write e.set = none then some .badValue
  else none

/-! ## Answers (R11, R21, R172) -/

/-- The four bytes of data slots as slots. -/
def dataSlots (d : List Byte) : List Slot := slotsOf d

/-- R11, R20, R21: the MGMT_RSP cell. -/
def answerCell (own dest b0 b1 tag : Nat) (r : Result) (d : List Byte) : List Byte :=
  buildCell kindMgmtRsp dest own false (slotOf b0 b1 r.code tag :: dataSlots d)

/-- R172: a request is answered on the port it came from, from the own address then in force. -/
def State.answer (r : Request) (res : Result) (d : List Byte) (s : State) : State :=
  s.offer r.port (answerCell s.env.set.general.ownAddress r.address r.header.b0.toNat r.header.b1.toNat
    r.header.field3 res d)

/-! ## Requests carried out (R173) -/

/-- R173: CLEAR_FAULT. The spec does not order the HEATER_FAIL test and the zone's evaluation at a heater (R134); the test is
made first (log 26). -/
def Jobs.clearFault (e : Env) (i : Nat) (j : Jobs) : Jobs :=
  if !e.set.actInUse i || (j.act i).fault == .none then j
  else
    let j := j.setFault i .none
    match (e.set.act i).kind with
    | .pump => j.post .fillFaults
    | .valveInlet => j.post .fillFaults
    | .valveDrain => j
    | .heater =>
        match e.set.heaterZone i with
        | some z => (j.post .frostFaults).post (.frostZone z)
        | none => j.post .frostFaults

/-- R177: a STORE taken: it begins, or waits for the latch word write being made. -/
def Jobs.takeStore (live : Settings) (r : Request) (j : Jobs) : Jobs :=
  j.stored (fun s =>
    let who : Asker :=
      { port := r.port, address := r.address, b0 := r.header.b0.toNat, b1 := r.header.b1.toNat, tag := r.header.field3 }
    let s := { s with asker := some who }
    if s.writing.isSome then { s with waiting := true } else s.begin live)

/-- The lock is set or cleared (R174). -/
def State.setLock (b : Bool) (s : State) : State :=
  { s with env := { s.env with set := { s.env.set with lock := b } } }

/-- R178: a RECALL: refused where the image is not complete, and else the image comes into force with a restart. -/
def State.recall (r : Request) (s : State) : State :=
  match s.jobs.store.valid, s.jobs.store.image with
  | true, some image => s.restart image
  | _, _ => s.answer r .notSafe []

/-- R114: RELEASE_TRIP, judged on the state it finds. -/
def State.releaseTrip (r : Request) (s : State) : State :=
  let res : Result := if (s.jobs.releaseTrip s.env).2 then .done else .notSafe
  (s.work (fun e j => (j.releaseTrip e).1)).answer r res []

/-- R173: a request that passed every check is carried out. -/
def State.carryOut (r : Request) (s : State) : State :=
  match r.kind with
  | 1 => s.answer r .done ((tableOf r.id).bind (fun t => entryGroup s.env s.jobs t r.index r.group) |>.getD [])
  | 2 =>
      match tableOf r.id, r.write s.env.set with
      | some t, some new => (s.change (takeWrite t r.index r.group new)).answer r .done []
      | _, _ => s
  | 3 => s.answer r .done ((recordGroup s.env s.jobs r.id r.index r.group).getD [])
  | 4 =>
      match condKinds[r.index]? with
      | some k => (s.work (fun e j => j.tele' (fun v t => t.acknowledge v k) e)).answer r .done []
      | none => s
  | 5 => (s.work (fun e j => j.clearFault e r.index)).answer r .done []
  | 6 => s.work (fun e j => j.takeStore e.set r)
  | 7 => s.recall r
  | 8 => s.restart s.env.set
  | 9 => (s.setLock true).answer r .done []
  | 10 => (s.setLock false).answer r .done []
  | 11 => s.releaseTrip r
  | _ => s

/-- R172, R173: a MGMT_REQ cell that the Loop interface hands on. -/
def State.manage (p : Port) (bs : List Byte) (s : State) : State :=
  match requestOf s.env.set p bs with
  | none => s.tally (Jobs.count (fun c => { c with discarded12 := c.discarded12 + 1#32 }))
  | some r =>
      match firstFailure s.env s.jobs r with
      | some res => s.answer r res []
      | none => s.carryOut r

/-! ## The settings store's own commands (R113, R177) -/

/-- R177: the STORE in flight is answered DONE. -/
def State.answerStore (s : State) : State :=
  match s.jobs.store.asker with
  | none => s
  | some a =>
      s.offer a.port (answerCell s.env.set.general.ownAddress a.address a.b0 a.b1 a.tag .done [])

/-- R177: a store completes. -/
def State.storeCompletes (s : State) : State :=
  if s.jobs.store.storing.isSome then
    ((s.answerStore.tally (Jobs.count (fun c => { c with stores14 := c.stores14 + 1#32 }))).work
      (fun e j => j.clear e .settingsLost)).tally (fun j => j.stored (Store.completed j.guard.latch))
  else s

/-- R177: a latch word write ends. -/
def State.wordCompletes (s : State) : State :=
  s.tally (fun j => j.stored (Store.wordWritten s.env.set j.guard.latch))

/-- R177: a STORE that waited begins, when nothing it waits for is left. -/
def State.deferredStore (s : State) : State :=
  if s.jobs.store.waiting then s.tally (fun j => j.stored (Store.beginNext s.env.set j.guard.latch)) else s

/-- R113: a latch word write that waited is made, when the settings store is idle. -/
def State.deferredWrite (s : State) : State :=
  if s.jobs.store.writeAsked then s.tally (fun j => j.stored (Store.beginNext s.env.set j.guard.latch)) else s

end Sys2Proof.Machine
end

