-- ==== Sys2Proof/Machine/Arrival.lean ====
section
/-!
DEFINITION. Arrivals (spec/01 sections 1.2 and 1.3): the check, the classification at each port, and what each block that
takes a cell does with it.
-/

namespace Sys2Proof.Machine

/-! ## Cells at the F-port (R5) -/

/-- R5: the forward test of a SAMPLE or STATUS cell. -/
def forwardTest (s : Settings) (bs : List Byte) : Bool :=
  !(s.known (cellSource bs) && (s.head (cellSource bs)).absorb)

/-- R4, R5: a SAMPLE or STATUS cell is forwarded upstream when the test passes. -/
def State.forwardUp (bs : List Byte) (s : State) : State :=
  if forwardTest s.env.set bs then s.offer .line bs else s

/-- R26, R33: a SAMPLE cell at Intake: each item in slot order, with all it causes, or a count for an unknown source. -/
def State.takeSample (bs : List Byte) (s : State) : State :=
  if s.env.set.known (cellSource bs) then
    (sampleItems bs).foldl (fun s x => s.change (takeItem (cellSource bs) x)) s
  else s.tally (Jobs.countBad .field)

/-- R63: a STATUS cell at the Actuator unit, when its source is an actuator's head. -/
def State.takeStatus (bs : List Byte) (s : State) : State :=
  match s.env.set.actAt (cellSource bs) with
  | some i => (slotsWith 0x20 bs).foldl (fun s x => s.work (fun e j => j.statusItem e i x)) s
  | none => s

/-- R73, R75: an ACK cell at the Actuator unit; one from the head of no in-use entry is discarded and counted. -/
def State.takeAck (bs : List Byte) (s : State) : State :=
  match s.env.set.actAt (cellSource bs) with
  | some i => (slotsWith 0x21 bs).foldl (fun s x => s.work (fun e j => j.ackItem e i x)) s
  | none => s.tally (Jobs.countBad .field)

/-- R5: the classification of a good cell at the F-port, by the first row that matches. -/
def State.classifyField (bs : List Byte) (s : State) : State :=
  let kind := cellKind bs
  let dest := cellDest bs
  let own := s.env.set.general.ownAddress
  if kind = kindSample then (s.takeSample bs).forwardUp bs
  else if kind = kindStatus then (s.takeStatus bs).forwardUp bs
  else if dest = own then
    if kind = kindAck then s.takeAck bs
    else if kind = kindMgmtReq then s.manage .field bs
    else s.tally (Jobs.countBad .field)
  else if 1 ≤ dest ∧ dest ≤ 47 then s
  else s.offer .line bs

/-! ## Cells at the L-port (R6) -/

/-- The governed actuator whose head address is the destination (R6). -/
def Settings.governedAt (s : Settings) (address : Nat) : Option Nat :=
  match s.actAt address with
  | some i => if (s.act i).governed then some i else none
  | none => none

/-- R78: an intercepted COMMAND cell at the operator path: each item in slot order, with all it causes. -/
def State.takeCommand (i : Nat) (bs : List Byte) (s : State) : State :=
  (operatorItems bs).foldl (fun s x => s.work (fun e j => j.operatorItem e i x)) s

/-- R84: a CLOCK cell at the Tariff clock. -/
def State.takeClock (bs : List Byte) (s : State) : State :=
  match (slotsWith 0x40 bs).head?.bind timeOfItem with
  | none => s.tally (Jobs.countBad .line)
  | some t =>
      s.change (fun p =>
        let e := p.1.setTime t
        (e, (((p.2.countJump p.1.clock t).clockTaken e).tariffChange p.1 e).post .fillEval))

/-- R6: the classification of a good cell at the L-port, by the first row that matches. -/
def State.classifyLine (bs : List Byte) (s : State) : State :=
  let kind := cellKind bs
  let dest := cellDest bs
  let own := s.env.set.general.ownAddress
  let governed := s.env.set.governedAt dest
  if kind = kindCommand ∧ governed.isSome then
    match governed with
    | some i => s.takeCommand i bs
    | none => s
  else if kind = kindCommand ∧ dest = 0 then s.tally Jobs.countRefusal
  else if kind = kindFence ∧ (dest = own ∨ dest = 0 ∨ governed.isSome) then s.work (fun e j => j.operatorFence e)
  else if kind = kindClock ∧ dest = 0 then (s.takeClock bs).offer .field bs
  else if kind = kindClock ∧ dest = own then s.takeClock bs
  else if kind = kindCredit ∧ (dest = own ∨ dest = 0) then s.takeCredit bs
  else if kind = kindMgmtReq ∧ dest = own then s.manage .line bs
  else if dest = own then s.tally (Jobs.countBad .line)
  else if dest = Config.lineMaster then s
  else s.offer .field bs

/-! ## Arrivals (R2) -/

/-- R2 to R6, R32: an arrival at a port. Intake hears a silent head's cell before the block of R5 takes it; the spec says
only that it does so beside that block (log 26). -/
def State.arrive (p : Port) (bs : List Byte) (s : State) : State :=
  if goodCell bs then
    match p with
    | .field => ((s.goodArrival .field).change (heard bs)).classifyField bs
    | .line => (s.goodArrival .line).classifyLine bs
  else s.badArrival p

/-- An arrival as a command. -/
def State.arrival (p : Port) (bs : List Byte) (s : State) : State := s.powerCommand (State.arrive p bs)

end Sys2Proof.Machine
end

