-- ==== Sys2Proof/Machine/Timers.lean ====
section
/-!
DEFINITION. The internal timer: the second and the minute boundary (spec/05 R82), and the expiries that change the clock or
a head. An expiry acts when its timer runs; the sender says when (log 3).
-/

namespace Sys2Proof.Machine

/-- R63, R82: one second of the internal timer: the time of week and the run minutes of the pumps reported ON. At a minute
boundary the Tariff State is derived, and the boundary is handed on, in no set order. The spec does not say on which side of the
boundary its second of run time counts; it is counted before the boundary is handed on (log 26). -/
def tick (p : Part) : Part :=
  let next := p.1.clock.tow.next
  let e := { p.1 with now := p.1.now + 1, clock := { p.1.clock with tow := next.1 } }
  let j := p.2.runSecond e
  if next.2 then
    (e.derive, (j.tariffChange e e.derive).tell [.fillEval, .frostMinute, .condMinute])
  else (e, j)

/-- R82: a minute boundary: the second passes 59. At another second there is none. -/
def minuteTick (p : Part) : Part := if 59 ≤ p.1.clock.tow.second then tick p else p

/-- R83: the clock-stale timer expires: DRIFTING, CLOCK_STALE, and a derivation. -/
def clockStaleExpiry (p : Part) : Part :=
  if p.1.clock.stale.isSome then
    let e := ({ p.1 with clock := { p.1.clock with state := .drifting, stale := none } }).derive
    (e, (p.2.raise e .clockStale).tariffChange p.1 e)
  else p

end Sys2Proof.Machine
end

