-- ==== Sys2Proof/Machine/Cells.lean ====
section
/-!
DEFINITION. The arrival rows of the table but for the management requests, one meaning each. A row's cell arrives like any
other: what it does is decided by its bytes (log 6).
-/

namespace Sys2Proof.Machine

/-- BAD_CELL: an arrival; a cell that fails the length or the check is discarded, counted and enters the bad run (spec/01
R2, R3). -/
def execBadCell (port : Port) (bytes : List Byte) (s : State) : Host.Outcome State Fault Refusal :=
  .next (s.arrival port bytes)

/-- FORWARDED_CELL: an arrival; a good cell that no block takes is forwarded, ignored or discarded (spec/01 R4 to R10). -/
def execForwardedCell (port : Port) (bytes : List Byte) (s : State) : Host.Outcome State Fault Refusal :=
  .next (s.arrival port bytes)

/-- SAMPLE: an arrival at the F-port; a SAMPLE cell goes to Intake item by item (spec/02 R26, spec/01 R5). -/
def execSample (bytes : List Byte) (s : State) : Host.Outcome State Fault Refusal :=
  .next (s.arrival .field bytes)

/-- STATUS: an arrival at the F-port; a STATUS cell goes to the Actuator unit (spec/04 R63, R75, R76). -/
def execStatus (bytes : List Byte) (s : State) : Host.Outcome State Fault Refusal :=
  .next (s.arrival .field bytes)

/-- ACK: an arrival at the F-port; an ACK to the own address goes to the Actuator unit (spec/04 R73, R75). -/
def execAck (bytes : List Byte) (s : State) : Host.Outcome State Fault Refusal :=
  .next (s.arrival .field bytes)

/-- OPERATOR_SWITCH: an arrival at the L-port; an intercepted COMMAND cell goes to the operator path (spec/04 R78). -/
def execOperatorSwitch (bytes : List Byte) (s : State) : Host.Outcome State Fault Refusal :=
  .next (s.arrival .line bytes)

/-- OPERATOR_POSITION: an arrival at the L-port; an intercepted COMMAND cell goes to the operator path (spec/04 R78). -/
def execOperatorPosition (bytes : List Byte) (s : State) : Host.Outcome State Fault Refusal :=
  .next (s.arrival .line bytes)

/-- OPERATOR_DUTY: an arrival at the L-port; an intercepted COMMAND cell goes to the operator path (spec/04 R78). -/
def execOperatorDuty (bytes : List Byte) (s : State) : Host.Outcome State Fault Refusal :=
  .next (s.arrival .line bytes)

/-- OPERATOR_QUERY: an arrival at the L-port; an intercepted COMMAND cell goes to the operator path (spec/04 R78). -/
def execOperatorQuery (bytes : List Byte) (s : State) : Host.Outcome State Fault Refusal :=
  .next (s.arrival .line bytes)

/-- OPERATOR_RELEASE: an arrival at the L-port; a RELEASE item ends an operator hold (spec/04 R78, R79). -/
def execOperatorRelease (bytes : List Byte) (s : State) : Host.Outcome State Fault Refusal :=
  .next (s.arrival .line bytes)

/-- FENCE: an arrival at the L-port; a FENCE cell queues one fence (spec/04 R78, spec/01 R6). -/
def execFence (bytes : List Byte) (s : State) : Host.Outcome State Fault Refusal :=
  .next (s.arrival .line bytes)

/-- CLOCK: an arrival at the L-port; a CLOCK cell sets the time of week (spec/05 R84). -/
def execClock (bytes : List Byte) (s : State) : Host.Outcome State Fault Refusal :=
  .next (s.arrival .line bytes)

/-- CREDIT: an arrival at the L-port; a CREDIT cell adds to or sets the credit count (spec/01 R12). -/
def execCredit (bytes : List Byte) (s : State) : Host.Outcome State Fault Refusal :=
  .next (s.arrival .line bytes)

end Sys2Proof.Machine
end

