-- ==== Sys2Proof/Machine/Expiries.lean ====
section
/-!
DEFINITION. The rows of the internal timer and of the expiries (log 3).
-/

namespace Sys2Proof.Machine

/-- SECOND_TICK: the internal timer advances by one second (spec/05 R82, spec/04 R63). -/
def execSecondTick (s : State) : Host.Outcome State Fault Refusal :=
  .next (s.powerCommand (State.change tick))

/-- MINUTE_BOUNDARY: the second passes 59 (spec/05 R82). -/
def execMinuteBoundary (s : State) : Host.Outcome State Fault Refusal :=
  .next (s.powerCommand (State.change minuteTick))

/-- STALE_TIMER_EXPIRY: a known head's stale timer expires (spec/02 R30). -/
def execStaleTimerExpiry (address : Nat) (s : State) : Host.Outcome State Fault Refusal :=
  .next (s.powerCommand (State.change (staleExpiry address)))

/-- SPLIT_TIMER_EXPIRY: the split timer expires and GAUGE_SPLIT is raised (spec/03 R48). -/
def execSplitTimerExpiry (s : State) : Host.Outcome State Fault Refusal :=
  .next (s.powerCommand (State.work Jobs.splitExpiry))

/-- REST_TIMER_EXPIRY: a pump's rest timer expires (spec/04 R65). -/
def execRestTimerExpiry (actuator : Nat) (s : State) : Host.Outcome State Fault Refusal :=
  .next (s.powerCommand (State.work (fun _ j => j.restExpiry actuator)))

/-- ACK_TIMEOUT_EXPIRY: an entry in AWAITING_ACK times out (spec/04 R74). -/
def execAckTimeoutExpiry (actuator : Nat) (s : State) : Host.Outcome State Fault Refusal :=
  .next (s.powerCommand (State.work (fun e j => j.ackTimeout e actuator)))

/-- VALVE_TRAVEL_EXPIRY: an entry in TRAVELLING times out (spec/04 R74). -/
def execValveTravelExpiry (actuator : Nat) (s : State) : Host.Outcome State Fault Refusal :=
  .next (s.powerCommand (State.work (fun e j => j.travelTimeout e actuator)))

/-- HOLD_TIMER_EXPIRY: an operator hold ends with cause EXPIRY (spec/04 R79). -/
def execHoldTimerExpiry (actuator : Nat) (s : State) : Host.Outcome State Fault Refusal :=
  .next (s.powerCommand (State.work (fun e j => j.holdExpiry e actuator)))

/-- CLOCK_STALE_EXPIRY: the clock becomes DRIFTING (spec/05 R83). -/
def execClockStaleExpiry (s : State) : Host.Outcome State Fault Refusal :=
  .next (s.powerCommand (State.change clockStaleExpiry))

/-- PROVE_TIMER_EXPIRY: a pump's prove timer expires (spec/05 R100). -/
def execProveTimerExpiry (pump : Nat) (s : State) : Host.Outcome State Fault Refusal :=
  .next (s.powerCommand (State.work (fun e j => j.proveExpiry e pump)))

/-- DRY_TIMER_EXPIRY: a pump's dry timer expires (spec/05 R101). -/
def execDryTimerExpiry (pump : Nat) (s : State) : Host.Outcome State Fault Refusal :=
  .next (s.powerCommand (State.work (fun e j => j.dryExpiry e pump)))

/-- BLIND_START_TIMER_EXPIRY: the blind start timer expires (spec/06 R115). -/
def execBlindStartTimerExpiry (s : State) : Host.Outcome State Fault Refusal :=
  .next (s.powerCommand (State.work Jobs.blindStartExpiry))

/-- HEATER_PROVE_TIMER_EXPIRY: a heater prove timer expires (spec/07 R133, R134). -/
def execHeaterProveTimerExpiry (zone : Nat) (s : State) : Host.Outcome State Fault Refusal :=
  .next (s.powerCommand (State.work (fun e j => j.heaterProveExpiry e zone)))

/-- PULSE_TIMER_EXPIRY: the pulse ends and the line is released (spec/09 R158). -/
def execPulseTimerExpiry (s : State) : Host.Outcome State Fault Refusal :=
  .next (s.powerCommand (State.work (Jobs.tele' (fun _ t => t.pulseExpiry))))

/-- MINIMUM_TIMER_EXPIRY: a policy entry's minimum timer expires (spec/10 R162). -/
def execMinimumTimerExpiry (entry : Nat) (s : State) : Host.Outcome State Fault Refusal :=
  .next (s.powerCommand (State.work (Jobs.tele' (fun v t => t.minimumExpiry v entry))))

/-- MAXIMUM_TIMER_EXPIRY: a policy entry's maximum timer expires (spec/10 R162). -/
def execMaximumTimerExpiry (entry : Nat) (s : State) : Host.Outcome State Fault Refusal :=
  .next (s.powerCommand (State.work (Jobs.tele' (fun v t => t.maximumExpiry v entry))))

/-- PACK_HOLD_EXPIRY: a routine cell's pack hold expires (spec/10 R168, R169). -/
def execPackHoldExpiry (cell : RoutineCell) (s : State) : Host.Outcome State Fault Refusal :=
  .next (s.powerCommand (State.work (Jobs.tele' (fun _ t => t.packHoldExpiry cell))))

end Sys2Proof.Machine
end

