-- ==== Sys2Proof/Machine/Ports.lean ====
section
/-!
DEFINITION. The rows of the two ports' transmitters and of CREDIT_WAIT.
-/

namespace Sys2Proof.Machine

/-- TRANSMIT_COMPLETION: the port's transmitter becomes idle (spec/01 R1). -/
def execTransmitCompletion (port : Port) (s : State) : Host.Outcome State Fault Refusal :=
  .next (s.powerCommand (State.transmitted port))

/-- L_PORT_SEND_BEGIN: the L-port arbiter begins a send, where R15 lets it (spec/01 R13 to R18). -/
def execLPortSendBegin (s : State) : Host.Outcome State Fault Refusal :=
  .next (s.powerCommand State.lineArbiter)

/-- F_PORT_SEND_BEGIN: the F-port arbiter begins a send, where R19 lets it (spec/01 R19, spec/04 R71). -/
def execFPortSendBegin (s : State) : Host.Outcome State Fault Refusal :=
  .next (s.powerCommand State.fieldArbiter)

/-- CREDIT_WAIT_EXPIRY: the running CREDIT_WAIT timer expires and LINE_STALLED is raised (spec/01 R14). -/
def execCreditWaitExpiry (s : State) : Host.Outcome State Fault Refusal :=
  .next (s.powerCommand State.creditWaitExpiry)

end Sys2Proof.Machine
end

