-- ==== Sys2Proof/Machine/Requests.lean ====
section
/-!
DEFINITION. The management request rows of the table, one meaning each: the request arrives as a MGMT_REQ cell and is
decided by its bytes (spec/11 R172, R173; log 6).
-/

namespace Sys2Proof.Machine

/-- READ_ENTRY: an arrival; a request to the own address that returns a field group of a table entry (spec/11 R173, R175). -/
def execReadEntry (port : Port) (bytes : List Byte) (s : State) : Host.Outcome State Fault Refusal :=
  .next (s.arrival port bytes)

/-- BAD_REQUEST_KIND: an arrival; a request whose kind is not 1..11 is answered BAD_VALUE (spec/11 R173). -/
def execBadRequestKind (port : Port) (bytes : List Byte) (s : State) : Host.Outcome State Fault Refusal :=
  .next (s.arrival port bytes)

/-- WRITE_ENTRY: an arrival; a request that checks and writes a field group, and its owner is told (spec/11 R176). -/
def execWriteEntry (port : Port) (bytes : List Byte) (s : State) : Host.Outcome State Fault Refusal :=
  .next (s.arrival port bytes)

/-- READ_RECORD: an arrival; a request that returns a field group of a runtime record (spec/11 R173, R175). -/
def execReadRecord (port : Port) (bytes : List Byte) (s : State) : Host.Outcome State Fault Refusal :=
  .next (s.arrival port bytes)

/-- ACK_CONDITION: an arrival; a request that acknowledges a condition kind (spec/09 R154). -/
def execAckCondition (port : Port) (bytes : List Byte) (s : State) : Host.Outcome State Fault Refusal :=
  .next (s.arrival port bytes)

/-- CLEAR_FAULT: an arrival; a request that sets an actuator's fault to NONE (spec/11 R173, spec/04 R64). -/
def execClearFault (port : Port) (bytes : List Byte) (s : State) : Host.Outcome State Fault Refusal :=
  .next (s.arrival port bytes)

/-- STORE: an arrival; a request that begins a store (spec/11 R177). -/
def execStore (port : Port) (bytes : List Byte) (s : State) : Host.Outcome State Fault Refusal :=
  .next (s.arrival port bytes)

/-- RECALL: an arrival; a request that brings the stored image into force with a restart (spec/11 R178). -/
def execRecall (port : Port) (bytes : List Byte) (s : State) : Host.Outcome State Fault Refusal :=
  .next (s.arrival port bytes)

/-- RESTART: an arrival; a request that performs a restart (spec/11 R178). -/
def execRestart (port : Port) (bytes : List Byte) (s : State) : Host.Outcome State Fault Refusal :=
  .next (s.arrival port bytes)

/-- SET_LOCK: an arrival; a request that from the local source sets the lock (spec/11 R174). -/
def execSetLock (port : Port) (bytes : List Byte) (s : State) : Host.Outcome State Fault Refusal :=
  .next (s.arrival port bytes)

/-- CLEAR_LOCK: an arrival; a request that from the local source clears the lock (spec/11 R174). -/
def execClearLock (port : Port) (bytes : List Byte) (s : State) : Host.Outcome State Fault Refusal :=
  .next (s.arrival port bytes)

/-- RELEASE_TRIP: an arrival; a request that from the local source asks the guard to release the latch (spec/06 R114). -/
def execReleaseTrip (port : Port) (bytes : List Byte) (s : State) : Host.Outcome State Fault Refusal :=
  .next (s.arrival port bytes)

end Sys2Proof.Machine
end

