-- ==== Sys2Proof/Machine/Supply.lean ====
section
/-!
DEFINITION. The rows of the supply and of the settings store.
-/

namespace Sys2Proof.Machine

/-- POWER_ON: the settings store loads, and every block takes its power-on state (spec/11 R179). On a part that has
power it is a loss of power followed by its return. -/
def execPowerOn (s : State) : Host.Outcome State Fault Refusal :=
  .next s.powerUp

/-- POWER_LOSS: all live state ceases; what the settings store holds survives (spec/11 R177). -/
def execPowerLoss (s : State) : Host.Outcome State Fault Refusal :=
  .next s.powerDown

/-- DEFERRED_STORE_BEGIN: a STORE that waited for a latch word write begins (spec/11 R177). -/
def execDeferredStoreBegin (s : State) : Host.Outcome State Fault Refusal :=
  .next (s.powerCommand State.deferredStore)

/-- STORE_COMPLETION: a store ends: the marker is complete, the STORE is answered, SETTINGS_LOST is cleared (spec/11
R177). -/
def execStoreCompletion (s : State) : Host.Outcome State Fault Refusal :=
  .next (s.powerCommand State.storeCompletes)

/-- LATCH_WORD_WRITE_DEFERRED: a latch word write that waited is made (spec/06 R113). -/
def execLatchWordWriteDeferred (s : State) : Host.Outcome State Fault Refusal :=
  .next (s.powerCommand State.deferredWrite)

/-- LATCH_WORD_WRITE_COMPLETION: a latch word write ends, and what waited begins (spec/11 R177). -/
def execLatchWordWriteCompletion (s : State) : Host.Outcome State Fault Refusal :=
  .next (s.powerCommand State.wordCompletes)

end Sys2Proof.Machine
end

