-- ==== Sys2Proof/Machine/Dispatch.lean ====
section
/-!
DEFINITION. One arm for each row of the opcode table, each one direct call of its meaning.
-/

namespace Sys2Proof.Machine

def exec (i : Instr) (s : State) : Host.Outcome State Fault Refusal :=
  match i with
  | .powerOn => Sys2Proof.Machine.execPowerOn s
  | .badCell port bytes => Sys2Proof.Machine.execBadCell port bytes s
  | .forwardedCell port bytes => Sys2Proof.Machine.execForwardedCell port bytes s
  | .sample bytes => Sys2Proof.Machine.execSample bytes s
  | .status bytes => Sys2Proof.Machine.execStatus bytes s
  | .ack bytes => Sys2Proof.Machine.execAck bytes s
  | .operatorSwitch bytes => Sys2Proof.Machine.execOperatorSwitch bytes s
  | .operatorPosition bytes => Sys2Proof.Machine.execOperatorPosition bytes s
  | .operatorDuty bytes => Sys2Proof.Machine.execOperatorDuty bytes s
  | .operatorQuery bytes => Sys2Proof.Machine.execOperatorQuery bytes s
  | .operatorRelease bytes => Sys2Proof.Machine.execOperatorRelease bytes s
  | .fence bytes => Sys2Proof.Machine.execFence bytes s
  | .clock bytes => Sys2Proof.Machine.execClock bytes s
  | .credit bytes => Sys2Proof.Machine.execCredit bytes s
  | .readEntry port bytes => Sys2Proof.Machine.execReadEntry port bytes s
  | .badRequestKind port bytes => Sys2Proof.Machine.execBadRequestKind port bytes s
  | .writeEntry port bytes => Sys2Proof.Machine.execWriteEntry port bytes s
  | .readRecord port bytes => Sys2Proof.Machine.execReadRecord port bytes s
  | .ackCondition port bytes => Sys2Proof.Machine.execAckCondition port bytes s
  | .clearFault port bytes => Sys2Proof.Machine.execClearFault port bytes s
  | .store port bytes => Sys2Proof.Machine.execStore port bytes s
  | .deferredStoreBegin => Sys2Proof.Machine.execDeferredStoreBegin s
  | .storeCompletion => Sys2Proof.Machine.execStoreCompletion s
  | .latchWordWriteDeferred => Sys2Proof.Machine.execLatchWordWriteDeferred s
  | .latchWordWriteCompletion => Sys2Proof.Machine.execLatchWordWriteCompletion s
  | .recall port bytes => Sys2Proof.Machine.execRecall port bytes s
  | .restart port bytes => Sys2Proof.Machine.execRestart port bytes s
  | .setLock port bytes => Sys2Proof.Machine.execSetLock port bytes s
  | .clearLock port bytes => Sys2Proof.Machine.execClearLock port bytes s
  | .releaseTrip port bytes => Sys2Proof.Machine.execReleaseTrip port bytes s
  | .transmitCompletion port => Sys2Proof.Machine.execTransmitCompletion port s
  | .lPortSendBegin => Sys2Proof.Machine.execLPortSendBegin s
  | .fPortSendBegin => Sys2Proof.Machine.execFPortSendBegin s
  | .secondTick => Sys2Proof.Machine.execSecondTick s
  | .minuteBoundary => Sys2Proof.Machine.execMinuteBoundary s
  | .creditWaitExpiry => Sys2Proof.Machine.execCreditWaitExpiry s
  | .staleTimerExpiry address => Sys2Proof.Machine.execStaleTimerExpiry address s
  | .splitTimerExpiry => Sys2Proof.Machine.execSplitTimerExpiry s
  | .restTimerExpiry actuator => Sys2Proof.Machine.execRestTimerExpiry actuator s
  | .ackTimeoutExpiry actuator => Sys2Proof.Machine.execAckTimeoutExpiry actuator s
  | .valveTravelExpiry actuator => Sys2Proof.Machine.execValveTravelExpiry actuator s
  | .holdTimerExpiry actuator => Sys2Proof.Machine.execHoldTimerExpiry actuator s
  | .clockStaleExpiry => Sys2Proof.Machine.execClockStaleExpiry s
  | .proveTimerExpiry pump => Sys2Proof.Machine.execProveTimerExpiry pump s
  | .dryTimerExpiry pump => Sys2Proof.Machine.execDryTimerExpiry pump s
  | .blindStartTimerExpiry => Sys2Proof.Machine.execBlindStartTimerExpiry s
  | .heaterProveTimerExpiry zone => Sys2Proof.Machine.execHeaterProveTimerExpiry zone s
  | .pulseTimerExpiry => Sys2Proof.Machine.execPulseTimerExpiry s
  | .minimumTimerExpiry entry => Sys2Proof.Machine.execMinimumTimerExpiry entry s
  | .maximumTimerExpiry entry => Sys2Proof.Machine.execMaximumTimerExpiry entry s
  | .packHoldExpiry cell => Sys2Proof.Machine.execPackHoldExpiry cell s
  | .powerLoss => Sys2Proof.Machine.execPowerLoss s

end Sys2Proof.Machine
end

