-- ==== Sys2Proof/Safety.lean ====
section
/-!
DEFINITION. What a safe run keeps, in the terms the claims use: the bounds the manual states for queues, counts and
tables, settings that satisfy the orderings every write is checked against, and the alert line that follows its rule.
-/

namespace Sys2Proof.Machine

/-! ## Bounds of the Loop interface -/

/-- R13, R8, R10, R16, R3: credits 0..15, at most 32 and 16 forwarded cells, streak 0..4, bad run 0..16. -/
abbrev Loop.Bounded (l : Loop) : Prop :=
  l.credits ≤ Config.creditMax ∧ l.lQueue.length ≤ Config.lQueueMax ∧ l.fQueue.length ≤ Config.fQueueMax
    ∧ l.streak ≤ Config.streakMax ∧ l.badRun ≤ Config.badRunMax

/-! ## The In-Flight Table -/

/-- R72: at most 4 entries, at most one for each actuator. -/
abbrev FlightBounded (f : List Flight) : Prop :=
  f.length ≤ Config.flightMax ∧ (f.map (·.idx)).Nodup

/-! ## Report cells, lists and the alert line -/

/-- R164, R165, R152, R163: at most 8 notices, at most 3 items in a report cell, neither due list holds an entry twice, and
every entry on the routine due list, of the 24 that there are, has its due flag set. -/
abbrev Tele.Bounded (t : Tele) : Prop :=
  t.notices.length ≤ Config.noticeMax
    ∧ t.urgent.items.length ≤ Config.cellItemMax ∧ t.opened.items.length ≤ Config.cellItemMax
    ∧ (t.ahead.getD .empty).items.length ≤ Config.cellItemMax
    ∧ t.urgentDue.Nodup ∧ t.due.Nodup
    ∧ t.policies.length = 24 ∧ ∀ i ∈ t.due, (t.policy i).due = true

/-- R157: an URGENT kind is active, not acknowledged, and has its alert enable set. -/
abbrev Tele.Unanswered (a : AlertSettings) (t : Tele) : Prop :=
  ∃ k ∈ condKinds, a.enabled k = true ∧ (t.cond k).active = true ∧ (t.cond k).acked = false

/-- R157: in LEVEL mode the line is asserted exactly while such a kind stands. -/
abbrev Tele.AlertFollows (a : AlertSettings) (t : Tele) : Prop :=
  a.mode = .level → (t.alert = true ↔ t.Unanswered a)

/-- R158: the pulse timer runs in PULSE mode alone. -/
abbrev Tele.PulseFollows (a : AlertSettings) (t : Tele) : Prop := a.mode = .level → t.pulse = none

/-! ## The latched trip -/

/-- R107, R110, R112: while the trip latch is set the band is TRIP and the demands of the trip stand. -/
abbrev GuardRecord.Held (g : GuardRecord) : Prop :=
  g.latch = true → g.band = .trip ∧ g.pumpDemand = true ∧ g.inletDemand = true ∧ g.drainDemand.isSome = true

/-! ## Settings -/

/-- R7, R103, R89: the own address is 48..61 or 63, the guard ordering holds, and the reserve lies below HIGH_MM. -/
abbrev Settings.Legal (s : Settings) : Prop :=
  ((48 ≤ s.general.ownAddress ∧ s.general.ownAddress ≤ 61) ∨ s.general.ownAddress = 63)
    ∧ (s.guard.high < s.guard.hihi ∧ s.guard.hihi < s.guard.trip ∧ s.guard.trip ≤ s.general.tankHeight
      ∧ s.guard.drainClose ≤ s.guard.high)
    ∧ s.general.reserveMm + s.general.reserveHyst < s.guard.high

/-- The settings in force, the stored image and the settings that a store in flight copies are legal. -/
abbrev State.SettingsLegal (s : State) : Prop :=
  s.env.set.Legal ∧ (∀ x ∈ s.jobs.store.image, x.Legal) ∧ (∀ x ∈ s.jobs.store.storing, x.Legal)

/-! ## The tables -/

/-- The tables of the settings have the entries that their chapters give them (R22, R60, R85, R52, R119, R159, R148). -/
abbrev Settings.Shaped (s : Settings) : Prop :=
  s.heads.length = 47 ∧ s.actuators.length = 12 ∧ s.tariff.length = 16 ∧ s.points.length = 12 ∧ s.zones.length = 4
    ∧ s.policy.length = 24 ∧ s.alerts.enables.length = 9

/-- Every table has its entries: settings in force and stored, head records, and the records of actuators, runs, zones,
claims, conditions and policies (R22, R36, R61, R97, R121, R138, R148, R159). -/
abbrev State.Shaped (s : State) : Prop :=
  s.env.set.Shaped ∧ s.env.heads.length = 47 ∧ s.jobs.suspects.length = 47 ∧ s.jobs.acts.length = 12
    ∧ s.jobs.runs.length = 2 ∧ s.jobs.frost.zones.length = 4 ∧ s.jobs.power.claims.length = 6
    ∧ s.jobs.tele.conds.length = 22 ∧ s.jobs.tele.policies.length = 24
    ∧ (∀ x ∈ s.jobs.store.image, x.Shaped) ∧ (∀ x ∈ s.jobs.store.storing, x.Shaped)

/-! ## The Command Queue -/

/-- The actuator of a guard command; none for any other item. -/
def QueueItem.guardIdx : QueueItem → Option Nat
  | .cmd i _ o => if o = .guard then some i else none
  | .fence _ => none

/-- R67, R69, R70: at most 16 items, the guard items first, and of them at most one command for an actuator. -/
abbrev QueueOrdered (q : List QueueItem) : Prop :=
  q.length ≤ Config.queueMax ∧ (∀ x ∈ q.dropWhile QueueItem.isGuard, x.isGuard = false) ∧ (q.filterMap QueueItem.guardIdx).Nodup

/-- The queue is ordered, and what keeps it so stands: a guard command is for a pump or a valve in use, a parked request is
not the guard's (R79), and the Actuator Table holds no more of a kind than R60 lets it, in force, stored and being stored. -/
abbrev State.QueueKept (s : State) : Prop :=
  QueueOrdered s.jobs.queue
    ∧ (∀ i ∈ s.jobs.queue.filterMap QueueItem.guardIdx, (s.env.set.act i).guarded = true)
    ∧ (∀ a ∈ s.jobs.acts, ∀ x ∈ a.parked, x.2 ≠ .guard)
    ∧ actuatorsOk s.env.set.actuators = true
    ∧ (∀ x ∈ s.jobs.store.image, actuatorsOk x.actuators = true)
    ∧ ∀ x ∈ s.jobs.store.storing, actuatorsOk x.actuators = true

/-! ## States between commands -/

/-- R77: a discord mark stands only where the reported state disagrees, and ACTUATOR_DISCORD only while a mark stands. -/
abbrev Jobs.DiscordSettled (e : Env) (j : Jobs) : Prop :=
  (∀ i < Config.actuatorCount, (j.act i).discord = true → agrees (j.commanded i) (j.act i).reported = false)
    ∧ ((∃ i < Config.actuatorCount, e.set.actInUse i = true ∧ (j.act i).discord = true)
      ∨ j.active .actuatorDiscord = false)

/-- Nothing waits to be told (log 2), and the discord marks are as R77 leaves them: the state in which a settling leaves
the part. -/
abbrev State.Settled (s : State) : Prop :=
  s.jobs.work = [] ∧ s.jobs.fill.startBar = [] ∧ s.jobs.DiscordSettled s.env

/-- The part is at work: it has power, and every telling of earlier commands has been taken. -/
abbrev State.Ready (s : State) : Prop := s.powered = true ∧ s.Settled

/-! ## Frames -/

/-- The flags that only a raise, a clear or an acknowledgement moves. -/
def Tele.flags (t : Tele) (k : CondKind) : Bool × Bool × Nat := ((t.cond k).active, (t.cond k).acked, (t.cond k).occurrences)

/-- What only a command writes in an actuator's record. -/
abbrev ActRuntime.view (a : ActRuntime) : Reported × Responsiveness × ActFault × Count × Nat × Commanded :=
  (a.reported, a.resp, a.fault, a.runMinutes, a.runSeconds, a.settled)

/-- The other actuators keep what only a command writes. -/
abbrev Jobs.OthersKeep (i : Nat) (j j' : Jobs) : Prop := ∀ k, k ≠ i → (j'.act k).view = (j.act k).view

/-- Of the Loop interface at most the CREDIT_WAIT timer has moved (R14). -/
abbrev Loop.SameBut (l l' : Loop) : Prop := l' = { l with creditWait := l'.creditWait }

/-! ## The groups of tables and records -/

/-- R175: the entry of the table has the field group. -/
def entryExists (t : Table) (i group : Nat) : Prop :=
  match t with
  | .general => i = 0 ∧ group < 4
  | .heads => 1 ≤ i ∧ i ≤ 47 ∧ group < 4
  | .actuators => i < 12 ∧ group = 0
  | .tariff => i < 16 ∧ group < 2
  | .strapping => (i < 12 ∧ group = 0) ∨ (i = 0 ∧ group = 1)
  | .guard => i = 0 ∧ group < 2
  | .zones => (i < 4 ∧ group < 3) ∨ (i = 4 ∧ group < 2)
  | .allotment => i = 0 ∧ group = 0
  | .policy => i < 24 ∧ group < 3
  | .conditions => i < 23 ∧ group = 0

/-- R175: the record has the index and the field group: Level Record, Fill Plan, Tariff State, claims, zones, actuators,
conditions and counters. -/
def recordExists (id i group : Nat) : Prop :=
  (id = 1 ∧ i = 0 ∧ group < 4) ∨ (id = 2 ∧ i = 0 ∧ group < 5) ∨ (id = 3 ∧ i = 0 ∧ group < 2)
    ∨ (id = 4 ∧ ((i < 6 ∧ group < 2) ∨ (i = 6 ∧ group = 0))) ∨ (id = 5 ∧ i < 4 ∧ group < 3)
    ∨ (id = 6 ∧ i < 12 ∧ group < 3) ∨ (id = 7 ∧ i < 22 ∧ group < 2) ∨ (id = 8 ∧ i = 0 ∧ group < 7)

/-- R174, R175: a WRITE_ENTRY to a field group is turned away by protection: the group is read-only, or the line source
writes a LOCKABLE table while the lock is set. -/
def writeBarred (t : Table) (group : Nat) (line locked : Prop) : Prop :=
  (t = .heads ∧ 2 ≤ group) ∨ (t = .policy ∧ group = 2)
    ∨ (line ∧ locked ∧ t ≠ .tariff ∧ t ≠ .policy ∧ t ≠ .conditions)

/-! ## What the statements call an arrival and an answer -/

/-- The state once a good cell has been counted, with what a silent head's cell does (R2, R3, R32), and before its
classification. -/
abbrev State.received (p : Port) (bs : List Byte) (s : State) : State :=
  match p with
  | .field => (s.goodArrival .field).change (heard bs)
  | .line => s.goodArrival .line

/-- The forwarded queue of a port (R8, R10). -/
abbrev Loop.queueOf (p : Port) (l : Loop) : List (List Byte) :=
  match p with
  | .line => l.lQueue
  | .field => l.fQueue

/-- The forwarded queue of a port after a cell is offered to it (R8 to R10). -/
abbrev Loop.offered (p : Port) (bs : List Byte) (l : Loop) : List (List Byte) :=
  match p with
  | .line => (l.offerL bs).1.lQueue
  | .field => (l.offerF bs).1.fQueue

/-- R11, R21: the MGMT_RSP cell that answers a request, from the own address given. -/
abbrev Request.answerCell (r : Request) (own : Nat) (res : Result) (d : List Byte) : List Byte :=
  Sys2Proof.Machine.answerCell own r.address r.header.b0.toNat r.header.b1.toNat r.header.field3 res d

/-- The port and the bytes of an arrival; none for a command that is not one. -/
def arrivalOf : Instr → Option (Port × List Byte)
  | .badCell port bytes => some (port, bytes)
  | .forwardedCell port bytes => some (port, bytes)
  | .sample bytes => some (.field, bytes)
  | .status bytes => some (.field, bytes)
  | .ack bytes => some (.field, bytes)
  | .operatorSwitch bytes => some (.line, bytes)
  | .operatorPosition bytes => some (.line, bytes)
  | .operatorDuty bytes => some (.line, bytes)
  | .operatorQuery bytes => some (.line, bytes)
  | .operatorRelease bytes => some (.line, bytes)
  | .fence bytes => some (.line, bytes)
  | .clock bytes => some (.line, bytes)
  | .credit bytes => some (.line, bytes)
  | .readEntry port bytes => some (port, bytes)
  | .badRequestKind port bytes => some (port, bytes)
  | .writeEntry port bytes => some (port, bytes)
  | .readRecord port bytes => some (port, bytes)
  | .ackCondition port bytes => some (port, bytes)
  | .clearFault port bytes => some (port, bytes)
  | .store port bytes => some (port, bytes)
  | .recall port bytes => some (port, bytes)
  | .restart port bytes => some (port, bytes)
  | .setLock port bytes => some (port, bytes)
  | .clearLock port bytes => some (port, bytes)
  | .releaseTrip port bytes => some (port, bytes)
  | .powerOn => none
  | .deferredStoreBegin => none
  | .storeCompletion => none
  | .latchWordWriteDeferred => none
  | .latchWordWriteCompletion => none
  | .transmitCompletion _ => none
  | .lPortSendBegin => none
  | .fPortSendBegin => none
  | .secondTick => none
  | .minuteBoundary => none
  | .creditWaitExpiry => none
  | .staleTimerExpiry _ => none
  | .splitTimerExpiry => none
  | .restTimerExpiry _ => none
  | .ackTimeoutExpiry _ => none
  | .valveTravelExpiry _ => none
  | .holdTimerExpiry _ => none
  | .clockStaleExpiry => none
  | .proveTimerExpiry _ => none
  | .dryTimerExpiry _ => none
  | .blindStartTimerExpiry => none
  | .heaterProveTimerExpiry _ => none
  | .pulseTimerExpiry => none
  | .minimumTimerExpiry _ => none
  | .maximumTimerExpiry _ => none
  | .packHoldExpiry _ => none
  | .powerLoss => none

/-- The cell that arrived at a port is a management request to the own address, and it is taken (R5, R6, R172). -/
abbrev State.Requested (p : Port) (bs : List Byte) (r : Request) (s : State) : Prop :=
  goodCell bs = true ∧ cellKind bs = kindMgmtReq ∧ cellDest bs = s.env.set.general.ownAddress
    ∧ requestOf s.env.set p bs = some r

/-- R32: the record of a head once a good F-port cell from it has been heard: a silent head's arrival is recorded, its
timer restarted, and it is LIVE unless the cell carries a fault. -/
abbrev heardHead (bs : List Byte) (e : Env) : HeadRuntime :=
  let a := cellSource bs
  if (e.set.head a).kind.measuring then e.head a
  else
    { e.head a with
      lastArrival := some e.clock.tow
      stale := some (e.now + (e.set.head a).staleLimit)
      state := if faultItem bs then (e.head a).state else .live }

/-- R26 to R29: the record of a head after one item of its SAMPLE cell. -/
abbrev headAfter (e : Env) (a : Nat) (r : HeadRuntime) (x : SampleItem) : HeadRuntime :=
  match reading (e.set.head a).kind x with
  | none => r
  | some (.value v clamped) =>
      { r with
        state := .live, lastValue := some v, clamped := clamped, lastArrival := some e.clock.tow,
        samples := r.samples + 1#32, stale := some (e.now + (e.set.head a).staleLimit) }
  | some (.fault code) =>
      { r with
        state := .faulty, faultCode := some code, lastArrival := some e.clock.tow, samples := r.samples + 1#32,
        stale := some (e.now + (e.set.head a).staleLimit) }

/-- R63: an actuator's reported state after one STATE item; a state code above 7 is skipped. -/
abbrev reportedByStatus (heater : Bool) (r : Reported) (x : Slot) : Reported :=
  match stateCodeOf x.field1 with
  | none => r
  | some code => ⟨code, if code = .duty then x.field2 else 0, if heater then x.field3 else r.units⟩

/-- R63, R73: an actuator's reported state after one ANSWER item. -/
abbrev reportedByAnswer (r : Reported) (x : Slot) : Reported :=
  match stateCodeOf x.field2 with
  | none => r
  | some code => ⟨code, if code = .duty then x.field3 else 0, r.units⟩

/-- The state in which the L-port's cell has been counted (R2). -/
abbrev lineCounted (s : State) : State :=
  { s with jobs := { s.jobs with
      counters := { s.jobs.counters with received2L := s.jobs.counters.received2L + 1#32 } } }

/-- The Command Queue takes a new command for actuator `i` at its tail (R67, R68): it has room, and its last segment holds
no command for the actuator. -/
abbrev Jobs.RoomFor (i : Nat) (j : Jobs) : Prop :=
  j.queue.length < 16 ∧ ∀ x ∈ lastSegment j.queue, x.isFor i = false

/-- The cell is an intercepted COMMAND cell for the governed actuator `i`, with the listed items given (R6, R78). -/
abbrev Intercepted (bs : List Byte) (s : State) (i : Nat) (items : List OperatorItem) : Prop :=
  goodCell bs = true ∧ cellKind bs = kindCommand ∧ s.env.set.governedAt (cellDest bs) = some i
    ∧ operatorItems bs = items

/-- R79: an operator hold is over: hold and parked request go, HOLD_ENDED is noticed with its cause, the jobs are told, and
a request that was parked is taken as a new one. -/
abbrev Jobs.holdOver (e : Env) (cause i : Nat) (j : Jobs) : Jobs :=
  let k := ((j.updateAct i (fun a => { a with hold := none, parked := none })).notice e (.holdEnded i cause)).tellHold e i
    false
  match (j.act i).parked with
  | none => k
  | some (a, o) => (k.take e o i a).1

end Sys2Proof.Machine
end

