-- ==== Sys2Proof/Certificates/Slice0/Obligations.lean ====
section
/-!
DEFINITION. The statements for the provers. A command's completion statement says what state the command answers; one over
a settled part (`State.Ready`) says it exactly.
-/

open Sys2Proof Sys2Proof.Machine

/-! ## The machine -/

/-- The step takes the command at the front of the queue with the queue's rest; on an empty queue the part idles (the
model's own queue, log 3). -/
def Obligations.StepRunsFrontCommand : Prop :=
  (∀ (c : Instr) (s : State), step { s with pending := c :: s.pending } = exec c s)
    ∧ ∀ s : State, s.pending = [] → step s = .next s

/-- What power-on leaves of a part whose store was never written, as far as the spec gives it (R3, R8, R10, R12, R16, R82,
R83, R116, R157, R180). -/
def Obligations.ResetLeavesSpecValues : Prop :=
  State.reset.loop.badRun = 0 ∧ State.reset.loop.lQueue = [] ∧ State.reset.loop.fQueue = []
    ∧ State.reset.loop.credits = 0 ∧ State.reset.loop.streak = 0
    ∧ State.reset.env.clock.tow = ⟨0, 0⟩ ∧ State.reset.env.clock.state = .unset
    ∧ State.reset.env.set = Settings.factory
    ∧ (∀ k, State.reset.jobs.active k = true ↔ (k = .clockUnset ∨ k = .settingsLost))
    ∧ State.reset.jobs.tele.alert = true ∧ State.reset.jobs.guard.latch = false
    ∧ State.reset.jobs.counters = Counters.zero
    ∧ ∀ i, (State.reset.jobs.act i).fault = .none ∧ (State.reset.jobs.act i).reported.code = .unknown

/-- The invariants below hold right after reset. -/
def Obligations.InvariantsHoldAtReset : Prop :=
  State.reset.loop.Bounded ∧ FlightBounded State.reset.jobs.flight ∧ State.reset.jobs.tele.Bounded
    ∧ State.reset.jobs.tele.AlertFollows State.reset.env.set.alerts
    ∧ State.reset.jobs.tele.PulseFollows State.reset.env.set.alerts
    ∧ State.reset.SettingsLegal ∧ State.reset.jobs.guard.Held ∧ State.reset.Shaped ∧ State.reset.Ready
    ∧ State.reset.QueueKept

/-- Every step keeps the bounds of the Loop interface and of the In-Flight Table (R3, R8, R10, R13, R16, R72). -/
def Obligations.StepKeepsLoopBounds : Prop :=
  ∀ s t : State, s.loop.Bounded → FlightBounded s.jobs.flight → step s = .next t →
    t.loop.Bounded ∧ FlightBounded t.jobs.flight

/-- R157: every step keeps the alert line, in LEVEL mode, asserted exactly while an alert-enabled URGENT kind is active and
unacknowledged. The pulse timer runs in PULSE mode alone (R158). -/
def Obligations.StepKeepsAlertLine : Prop :=
  ∀ s t : State, s.jobs.tele.AlertFollows s.env.set.alerts → s.jobs.tele.PulseFollows s.env.set.alerts →
    step s = .next t →
    t.jobs.tele.AlertFollows t.env.set.alerts ∧ t.jobs.tele.PulseFollows t.env.set.alerts

/-- Every step keeps the settings in force, stored and being stored legal: the own address, the guard ordering and the
reserve below HIGH_MM (R7, R89, R103). -/
def Obligations.StepKeepsSettingsLegal : Prop :=
  ∀ s t : State, s.SettingsLegal → step s = .next t → t.SettingsLegal

/-- Every step keeps a latched trip in the band TRIP with its demands (R107, R110, R112). -/
def Obligations.StepKeepsLatchedTrip : Prop :=
  ∀ s t : State, s.jobs.guard.Held → step s = .next t → t.jobs.guard.Held

/-- R110, R114: while the part has power, only a RELEASE_TRIP from the local source clears the trip latch: every command but
the supply's leaves a set latch set, unless it is the arrival of such a request. -/
def Obligations.OnlyRequestsClearLatch : Prop :=
  ∀ (c : Instr) (s t : State), s.powered = true → s.jobs.guard.latch = true → c ≠ .powerOn → c ≠ .powerLoss →
    (∀ p bs r, arrivalOf c = some (p, bs) → s.Requested p bs r → r.kind = 11 → r.source ≠ .local) →
    exec c s = .next t → t.jobs.guard.latch = true

/-- Every step keeps the bounds of the Report unit: notices, report cells, due lists and due flags (R152, R163 to R165). -/
def Obligations.StepKeepsReportBounds : Prop :=
  ∀ s t : State, s.jobs.tele.Bounded → step s = .next t → t.jobs.tele.Bounded

/-- Every step keeps every table at the size its chapter gives it. -/
def Obligations.StepKeepsTableSizes : Prop :=
  ∀ s t : State, s.Shaped → step s = .next t → t.Shaped

/-- R14: whatever the command, the CREDIT_WAIT timer runs after it, while the part has power, exactly while the credits are
0, an L-port candidate waits and LINE_STALLED is inactive. And a command on a part that is ready leaves it ready: once
nothing waits to be told (log 2), no pump start is barred and the discord marks are as R77 leaves them. -/
def Obligations.CreditWaitRunsWhileStalled : Prop :=
  (∀ (c : Instr) (s t : State), exec c s = .next t → t.powered = true →
    (t.loop.creditWait.isSome = true
      ↔ t.loop.credits = 0 ∧ t.candidateWaits = true ∧ t.jobs.active .lineStalled = false))
    ∧ ∀ (c : Instr) (s t : State), s.Ready → exec c s = .next t → t.powered = true → t.jobs.work = [] → t.Ready

/-! ## The Loop interface (spec/01) -/

/-- R2, R18, R20: every cell of at most 3 slots that the part originates passes the check of R2, and carries its kind,
destination, source and slots; and a good cell is 6 to 18 bytes long. -/
def Obligations.OriginatedCellsAreGood : Prop :=
  (∀ (kind dest src : Nat) (urgent : Bool) (slots : List Slot), kind < 256 → slots.length ≤ 3 →
    let bs := buildCell kind dest src urgent slots
    goodCell bs = true ∧ cellKind bs = kind ∧ cellDest bs = dest % 64 ∧ cellSource bs = src % 64
      ∧ cellSlots bs = slots ∧ (byteAt bs 3).msb = urgent)
    ∧ ∀ bs : List Byte, goodCell bs = true → 6 ≤ bs.length ∧ bs.length ≤ 18

/-- R2, R3: a cell that fails the length or the check is discarded and counted at its port; at the F-port the bad run
rises to at most 16, and LOOP_NOISE is raised when it reaches 16. Nothing else moves, but what that raise moves in the
Condition and Report units and the CREDIT_WAIT timer (R14). -/
def Obligations.BadCellIsCounted : Prop :=
  ∀ (bs : List Byte) (s : State), s.Ready → goodCell bs = false →
    exec (.badCell .line bs) s = .next
        ({ s with jobs := { s.jobs with
            counters := { s.jobs.counters with bad4L := s.jobs.counters.bad4L + 1#32 } } }).creditWatch
      ∧ (s.loop.badRun ≠ 15 → exec (.badCell .field bs) s = .next
          ({ s with
              loop := { s.loop with badRun := min 16 (s.loop.badRun + 1) }
              jobs := { s.jobs with
                counters := { s.jobs.counters with bad3F := s.jobs.counters.bad3F + 1#32 } } }).creditWatch)
      ∧ (s.loop.badRun = 15 → s.Shaped → ∃ t, exec (.badCell .field bs) s = .next t
          ∧ ({ s.loop with badRun := 16 } : Loop).SameBut t.loop
          ∧ t.jobs = { s.jobs with
              tele := t.jobs.tele
              counters := { s.jobs.counters with bad3F := s.jobs.counters.bad3F + 1#32 } }
          ∧ t.jobs.active .loopNoise = true ∧ t.env = s.env ∧ t.pending = s.pending
          ∧ ∀ k, k ≠ CondKind.loopNoise → t.jobs.tele.flags k = s.jobs.tele.flags k)

/-- R4, R5, R8: at the F-port a good cell that no block takes and that is not for the field segment joins the tail of the
L-port forwarded queue while that has room, byte for byte; one for 1..47 is ignored, and one for
the own address that is neither an ACK nor a MGMT_REQ is discarded and counted. It sets the bad run to 0 (R3) and counts as
received (R2); settings, clock, flight and actuators stay. -/
def Obligations.FieldCellIsForwarded : Prop :=
  ∀ (bs : List Byte) (s : State), s.powered = true → goodCell bs = true →
    cellKind bs ≠ kindSample → cellKind bs ≠ kindStatus →
    let own := s.env.set.general.ownAddress
    let taken := fun (t : State) => t.loop.badRun = 0 ∧ t.loop.fQueue = s.loop.fQueue
      ∧ t.loop.credits = s.loop.credits ∧ t.loop.lTx = s.loop.lTx ∧ t.loop.fTx = s.loop.fTx
      ∧ t.env.set = s.env.set ∧ t.env.clock = s.env.clock
      ∧ t.jobs.counters.received1F = s.jobs.counters.received1F + 1#32
      ∧ t.jobs.flight = s.jobs.flight ∧ ∀ i, (t.jobs.act i).view = (s.jobs.act i).view
    (cellDest bs ≠ own → s.loop.lQueue.length < 32 →
      ∃ t, exec (.forwardedCell .field bs) s = .next t ∧ taken t
        ∧ t.loop.lQueue = (if 1 ≤ cellDest bs ∧ cellDest bs ≤ 47 then s.loop.lQueue else s.loop.lQueue ++ [bs])
        ∧ t.jobs.counters.bad3F = s.jobs.counters.bad3F)
    ∧ (cellDest bs = own → cellKind bs ≠ kindAck → cellKind bs ≠ kindMgmtReq →
      ∃ t, exec (.forwardedCell .field bs) s = .next t ∧ taken t ∧ t.loop.lQueue = s.loop.lQueue
        ∧ t.jobs.counters.bad3F = s.jobs.counters.bad3F + 1#32)

/-- R4, R6, R10: at the L-port a good cell that no row of R6 takes joins the tail of the F-port forwarded queue while that
has room, byte for byte; one for the line master is ignored; one for the own address is discarded and counted. A
broadcast COMMAND cell is discarded and counted as a refusal, whatever the row it comes as. Nothing else moves. -/
def Obligations.LineCellIsForwarded : Prop :=
  (∀ (bs : List Byte) (s : State), s.Ready → goodCell bs = true →
    let kind := cellKind bs
    let dest := cellDest bs
    let own := s.env.set.general.ownAddress
    let received := { s.jobs.counters with received2L := s.jobs.counters.received2L + 1#32 }
    ¬ (kind = kindCommand ∧ ((s.env.set.governedAt dest).isSome = true ∨ dest = 0)) →
    ¬ (kind = kindFence ∧ (dest = own ∨ dest = 0 ∨ (s.env.set.governedAt dest).isSome = true)) →
    ¬ ((kind = kindClock ∨ kind = kindCredit) ∧ (dest = 0 ∨ dest = own)) → ¬ (kind = kindMgmtReq ∧ dest = own) →
    (dest ≠ own → dest ≠ 62 → s.loop.fQueue.length < 16 → exec (.forwardedCell .line bs) s = .next
        ({ s with
            loop := { s.loop with fQueue := s.loop.fQueue ++ [bs] }
            jobs := { s.jobs with counters := received } }).creditWatch)
      ∧ (dest ≠ own → dest = 62 → exec (.forwardedCell .line bs) s = .next
        ({ s with jobs := { s.jobs with counters := received } }).creditWatch)
      ∧ (dest = own → exec (.forwardedCell .line bs) s = .next
        ({ s with jobs := { s.jobs with
            counters := { received with bad4L := s.jobs.counters.bad4L + 1#32 } } }).creditWatch))
    ∧ ∀ (c : Instr) (bs : List Byte) (s : State), arrivalOf c = some (.line, bs) → s.Ready → goodCell bs = true →
      cellKind bs = kindCommand → cellDest bs = 0 → exec c s = .next
        ({ s with jobs := { s.jobs with counters := { s.jobs.counters with
            received2L := s.jobs.counters.received2L + 1#32
            refusals11 := s.jobs.counters.refusals11 + 1#32 } } }).creditWatch

/-- R9, R10: a cell offered to a full L-port forwarded queue: a SAMPLE, STATUS or MGMT_RSP cell displaces the oldest SAMPLE
cell, the others keeping their order, and joins the tail; without one, and for any other kind, the offered cell is lost.
Each way the queue stays full and the counter of displaced and discarded cells rises by one. A full F-port forwarded queue
discards and counts the cell, whatever its kind. -/
def Obligations.FullQueueGivesWayToSamples : Prop :=
  (∀ (bs : List Byte) (s : State), s.loop.lQueue.length = 32 →
    let gives := cellKind bs = kindSample ∨ cellKind bs = kindStatus ∨ cellKind bs = kindMgmtRsp
    (s.offer .line bs).jobs.counters = { s.jobs.counters with displaced7 := s.jobs.counters.displaced7 + 1#32 }
      ∧ (s.offer .line bs).loop.lQueue.length = 32
      ∧ (∀ (before after : List (List Byte)) (old : List Byte), gives → s.loop.lQueue = before ++ old :: after →
          cellKind old = kindSample → (∀ x ∈ before, cellKind x ≠ kindSample) →
          (s.offer .line bs).loop.lQueue = before ++ after ++ [bs])
      ∧ ((¬ gives ∨ ∀ x ∈ s.loop.lQueue, cellKind x ≠ kindSample) →
          (s.offer .line bs).loop.lQueue = s.loop.lQueue))
    ∧ ∀ (bs : List Byte) (s : State), 16 ≤ s.loop.fQueue.length →
      s.offer .field bs = { s with jobs := { s.jobs with
        counters := { s.jobs.counters with displaced7 := s.jobs.counters.displaced7 + 1#32 } } }

/-- R12: a CREDIT cell to the own address or to 0 is read for its first GRANT item: mode add adds up to 15, mode set sets,
and anything else, a missing item too, discards and counts the cell. Nothing else moves. -/
def Obligations.CreditCellSetsCount : Prop :=
  ∀ (bs : List Byte) (s : State), s.Ready → goodCell bs = true → cellKind bs = kindCredit →
    (cellDest bs = s.env.set.general.ownAddress ∨ cellDest bs = 0) →
    let received := { s.jobs.counters with received2L := s.jobs.counters.received2L + 1#32 }
    let taken : Nat → Host.Outcome State Fault Refusal := fun n => .next
      ({ s with loop := { s.loop with credits := n }, jobs := { s.jobs with counters := received } }).creditWatch
    let discarded : Host.Outcome State Fault Refusal := .next
      ({ s with jobs := { s.jobs with
          counters := { received with bad4L := received.bad4L + 1#32 } } }).creditWatch
    (slotsWith 0x41 bs = [] → exec (.credit bs) s = discarded)
      ∧ ∀ (x : Slot) (rest : List Slot), slotsWith 0x41 bs = x :: rest →
        (1 ≤ x.field1 → x.field1 ≤ 15 → x.field2 = 0 →
          exec (.credit bs) s = taken (min 15 (s.loop.credits + x.field1)))
        ∧ (1 ≤ x.field1 → x.field1 ≤ 15 → x.field2 = 1 → exec (.credit bs) s = taken x.field1)
        ∧ ((x.field1 = 0 ∨ 15 < x.field1 ∨ 1 < x.field2) → exec (.credit bs) s = discarded)

/-- R13 to R17: a send begins on the L-port when its transmitter is idle, a credit stands and a candidate waits. The urgent
cell goes first unless four in a row have gone before a waiting routine candidate; the routine choice alternates between a
forwarded cell and a READY open cell. Each send spends one credit and clears LINE_STALLED; otherwise nothing begins. -/
def Obligations.LineSendFollowsArbiter : Prop :=
  ∀ s : State, s.Ready → s.Shaped →
    let own := s.env.set.general.ownAddress
    let routine := ¬ s.loop.lQueue = [] ∨ s.jobs.tele.opened.ready = true
    let urgent := s.jobs.tele.urgent.ready = true ∧ ¬ (s.loop.streak = 4 ∧ routine)
    ((s.loop.lTx ≠ none ∨ s.loop.credits = 0 ∨ (s.jobs.tele.urgent.ready = false ∧ ¬ routine)) →
        exec .lPortSendBegin s = .next s.creditWatch)
      ∧ (s.loop.lTx = none → 0 < s.loop.credits → (s.jobs.tele.urgent.ready = true ∨ routine) →
        ∃ t, exec .lPortSendBegin s = .next t ∧ t.loop.credits = s.loop.credits - 1
          ∧ t.jobs.active .lineStalled = false ∧ t.env = s.env ∧ t.loop.fQueue = s.loop.fQueue
          ∧ t.loop.fTx = s.loop.fTx
          ∧ (urgent → t.loop.lTx = some (reportCell own true s.jobs.tele.urgent) ∧ t.loop.lQueue = s.loop.lQueue
              ∧ t.loop.turn = s.loop.turn ∧ (routine → t.loop.streak = s.loop.streak + 1)
              ∧ (¬ routine → t.loop.streak = 0))
          ∧ (¬ urgent → t.loop.streak = 0
              ∧ (∀ bs rest, s.loop.lQueue = bs :: rest →
                  ¬ (s.jobs.tele.opened.ready = true ∧ s.loop.turn = .report) →
                  t.loop.lTx = some bs ∧ t.loop.lQueue = rest ∧ t.loop.turn = .report
                    ∧ t.jobs.counters.forwarded5Up = s.jobs.counters.forwarded5Up + 1#32)
              ∧ ((s.loop.lQueue = [] ∨ (s.jobs.tele.opened.ready = true ∧ s.loop.turn = .report)) →
                  t.loop.lTx = some (reportCell own false s.jobs.tele.opened) ∧ t.loop.lQueue = s.loop.lQueue
                    ∧ t.loop.turn = .forward)))

/-- R19, R62, R71, R72: an idle F-port transmitter takes a ready command first: a COMMAND cell from the own address to the
actuator's head, an In-Flight Table entry with its timer, the settled command, and the counter. Otherwise it takes the head
of the forwarded queue (R10). A busy transmitter, or nothing that waits, begins nothing. -/
def Obligations.FieldSendIssuesCommandFirst : Prop :=
  (∀ s : State, s.Ready → s.loop.fTx ≠ none → exec .fPortSendBegin s = .next s.creditWatch)
    ∧ (∀ s : State, s.Ready → s.jobs.ready = none → s.loop.fQueue = [] → exec .fPortSendBegin s = .next s.creditWatch)
    ∧ (∀ (s : State) (bs : List Byte) (rest : List (List Byte)), s.Ready → s.loop.fTx = none → s.jobs.ready = none →
      s.loop.fQueue = bs :: rest → exec .fPortSendBegin s = .next
        ({ s with
            loop := { s.loop with fTx := some bs, fQueue := rest }
            jobs := { s.jobs with counters :=
              { s.jobs.counters with forwarded6Down := s.jobs.counters.forwarded6Down + 1#32 } } }).creditWatch)
    ∧ ∀ (s : State) (i : Nat) (a : Action) (o : Origin), s.Ready → s.Shaped → s.loop.fTx = none → i < 12 →
      s.jobs.ready = some (i, a, o) →
      ∃ t, exec .fPortSendBegin s = .next t
        ∧ t.loop.fTx = some (buildCell kindCommand (s.env.set.act i).address s.env.set.general.ownAddress false [a.slot])
        ∧ t.loop.fQueue = s.loop.fQueue ∧ t.env = s.env
        ∧ t.jobs.flight = s.jobs.flight ++ [⟨i, a, o, false, s.env.now + s.env.set.general.ackTimeout⟩]
        ∧ (t.jobs.act i).settled = a.commanded.getD (s.jobs.act i).settled
        ∧ t.jobs.counters.issued9 = s.jobs.counters.issued9 + 1#32 ∧ s.jobs.OthersKeep i t.jobs

/-- R1: a transmit completion frees its port's transmitter and moves nothing else but CREDIT_WAIT (R14). -/
def Obligations.TransmitCompletionFreesPort : Prop :=
  ∀ s : State, s.Ready →
    exec (.transmitCompletion .line) s = .next ({ s with loop := { s.loop with lTx := none } }).creditWatch
      ∧ exec (.transmitCompletion .field) s = .next ({ s with loop := { s.loop with fTx := none } }).creditWatch

/-- R14: the expiry of a running CREDIT_WAIT timer raises LINE_STALLED, and the timer is stopped while it is active; without
a running timer nothing happens. -/
def Obligations.CreditWaitExpiryRaisesLineStalled : Prop :=
  ∀ s : State, s.Ready → s.Shaped →
    (s.loop.creditWait = none → exec .creditWaitExpiry s = .next s.creditWatch)
      ∧ (s.loop.creditWait ≠ none → ∃ t, exec .creditWaitExpiry s = .next t ∧ t.jobs.active .lineStalled = true
          ∧ t.loop = { s.loop with creditWait := none } ∧ t.env = s.env
          ∧ (s.jobs.active .lineStalled = false → t.jobs.tele.urgentDue.contains .lineStalled = true
              ∨ t.jobs.tele.urgent.hasKind .lineStalled = true)
          ∧ ∀ k, k ≠ CondKind.lineStalled → t.jobs.tele.flags k = s.jobs.tele.flags k)

/-! ## Intake (spec/02) -/

/-- R26 to R29, R32, R33: a SAMPLE cell from a known head takes its items in slot order into the head's record, and no other
head's; one from another source is counted, and no record moves. Either way its copy is offered upstream unless the head's
policy is ABSORB (R5), and the settings and the clock stay. -/
def Obligations.SampleUpdatesHeadRecord : Prop :=
  ∀ (bs : List Byte) (s : State), s.powered = true → s.Shaped → goodCell bs = true → cellKind bs = kindSample →
    let a := cellSource bs
    ∃ t, exec (.sample bs) s = .next t ∧ t.env.set = s.env.set ∧ t.env.clock = s.env.clock ∧ t.env.now = s.env.now
      ∧ t.loop.badRun = 0
      ∧ (s.env.set.known a = true →
          t.env.head a = (sampleItems bs).foldl (headAfter s.env a) (heardHead bs s.env)
            ∧ ∀ b, b ≠ a → t.env.head b = s.env.head b)
      ∧ (s.env.set.known a = false → t.env.heads = s.env.heads
          ∧ t.jobs.counters.bad3F = s.jobs.counters.bad3F + 1#32)
      ∧ t.loop.lQueue = (if s.env.set.known a = true ∧ (s.env.set.head a).absorb = true then s.loop.lQueue
          else s.loop.offered .line bs)

/-- R30, R31: the expiry of a known head's stale timer makes the head STALE with its timer stopped and its last value kept,
and raises HEAD_STALE unless it is a SERVICE head; without a running timer nothing happens. -/
def Obligations.StaleExpiryMakesHeadStale : Prop :=
  ∀ (a : Nat) (s : State), s.Shaped →
    (s.Ready → (s.env.head a).stale = none → exec (.staleTimerExpiry a) s = .next s.creditWatch)
      ∧ (s.powered = true → (s.env.head a).stale ≠ none → s.env.set.known a = true →
        ∃ t, exec (.staleTimerExpiry a) s = .next t
          ∧ t.env.head a = { s.env.head a with state := .stale, stale := none }
          ∧ (∀ b, b ≠ a → t.env.head b = s.env.head b) ∧ t.env.set = s.env.set ∧ t.env.clock = s.env.clock
          ∧ ((s.env.set.head a).kind ≠ .service → t.jobs.active .headStale = true)
          ∧ s.loop.SameBut t.loop ∧ t.jobs.flight = s.jobs.flight
          ∧ ∀ i, (t.jobs.act i).view = (s.jobs.act i).view)

/-! ## The Level unit (spec/03) -/

/-- R42, R44: a delivered count or distance becomes the gauge's level in the Level Record, clamped to the tank height, with
its clamped mark; the other gauge's level is only clamped to the height in force (R51). -/
def Obligations.GaugeDeliveriesConvert : Prop :=
  (∀ (e : Env) (j : Jobs) (c : Nat) (mark : Bool) (z s f : Nat),
    let tank := e.set.general.tankHeight
    let level := if c ≤ z then 0 else (c - z) * f / s
    (j.gaugeA e c mark z s f).level.gaugeA.map (fun g => (g.level, g.mark))
        = some (min level tank, mark || decide (tank < level))
      ∧ (j.gaugeA e c mark z s f).level.gaugeB.map (·.raw) = j.level.gaugeB.map (·.raw))
    ∧ ∀ (e : Env) (j : Jobs) (d : Nat) (mark : Bool) (m : Nat),
      let tank := e.set.general.tankHeight
      (j.gaugeB e d mark m).level.gaugeB.map (fun g => (g.level, g.mark))
          = some (min (m - d) tank, mark || decide (m < d) || decide (tank < m - d))
        ∧ (j.gaugeB e d mark m).level.gaugeA.map (·.raw) = j.level.gaugeA.map (·.raw)

/-- R46, R47, R50: the fusion state, the fill level and the guard level of a recomputation, row by row; the fill level is
at most the guard level outside BLIND, and both lie within the tank height. -/
def Obligations.FusionFollowsGauges : Prop :=
  ∀ (e : Env) (suspectA suspectB : Bool) (a b : Option GaugeLevel) (r : LevelRecord),
    let tol := e.set.general.agreeTol
    let tank := e.set.general.tankHeight
    let n := r.derive e suspectA suspectB a b
    (∀ x y, a = some x → b = some y → x.level ≤ tank → y.level ≤ tank →
        (max x.level y.level - min x.level y.level ≤ tol →
          n.fusion = .agree ∧ n.fill = (x.level + y.level) / 2 ∧ n.guard = n.fill)
        ∧ (tol < max x.level y.level - min x.level y.level →
          n.fusion = .split ∧ n.fill = min x.level y.level
            ∧ n.guard = (if suspectA = true ∧ suspectB = false then y.level
                else if suspectA = false ∧ suspectB = true then x.level else max x.level y.level))
        ∧ n.fill ≤ n.guard ∧ n.guard ≤ tank ∧ n.aged = false ∧ n.overRange = (x.mark || y.mark))
      ∧ (∀ x, a = some x → b = none →
        n.fusion = .singleA ∧ n.fill = x.level ∧ n.guard = x.level ∧ n.aged = false ∧ n.overRange = x.mark)
      ∧ (∀ y, a = none → b = some y →
        n.fusion = .singleB ∧ n.fill = y.level ∧ n.guard = y.level ∧ n.aged = false ∧ n.overRange = y.mark)
      ∧ (a = none → b = none → n.fusion = .blind ∧ n.fill = min r.fill tank ∧ n.guard = min r.guard tank
        ∧ n.aged = true ∧ n.overRange = false)

/-- R53: with the strapping order of R52, the volume lies between those of the first and the last in-use point, does not
fall as the level rises, and is a point's own volume at its level. -/
def Obligations.VolumeFollowsStrapping : Prop :=
  ∀ s : Settings, s.strappingOk = true → 2 ≤ s.pointsInUse → s.pointsInUse ≤ s.points.length →
    (∀ l, (s.points.getD 0 ⟨0, 0⟩).volume ≤ s.volumeAt l
        ∧ s.volumeAt l ≤ (s.points.getD (s.pointsInUse - 1) ⟨0, 0⟩).volume)
      ∧ (∀ l l', l ≤ l' → s.volumeAt l ≤ s.volumeAt l')
      ∧ ∀ i, i < s.pointsInUse → s.volumeAt (s.points.getD i ⟨0, 0⟩).level = (s.points.getD i ⟨0, 0⟩).volume

/-- R48: the expiry of a running split timer stops it and raises GAUGE_SPLIT; nothing else moves but what the raise moves in
the Condition and Report units. Without a running timer nothing happens. -/
def Obligations.SplitExpiryRaisesGaugeSplit : Prop :=
  ∀ s : State, s.Ready → s.Shaped →
    (s.jobs.level.split = none → exec .splitTimerExpiry s = .next s.creditWatch)
      ∧ (s.jobs.level.split ≠ none → ∃ t, exec .splitTimerExpiry s = .next t
          ∧ t.jobs = { s.jobs with level := { s.jobs.level with split := none }, tele := t.jobs.tele }
          ∧ t.jobs.active .gaugeSplit = true ∧ t.env = s.env ∧ s.loop.SameBut t.loop
          ∧ ∀ k, k ≠ CondKind.gaugeSplit → t.jobs.tele.flags k = s.jobs.tele.flags k)

/-! ## The Actuator unit (spec/04) -/

/-- R63: a STATUS cell from the head of an in-use actuator sets its reported state, item by item, and makes it RESPONSIVE;
no other actuator's report, fault or settled command moves. From another source nothing is taken. Either way its copy is
offered upstream unless the head's policy is ABSORB (R5). -/
def Obligations.StatusSetsReportedState : Prop :=
  ∀ (bs : List Byte) (s : State), s.powered = true → s.Shaped → goodCell bs = true → cellKind bs = kindStatus →
    let a := cellSource bs
    let items := slotsWith 0x20 bs
    ∃ t, exec (.status bs) s = .next t ∧ t.env.set = s.env.set ∧ t.env.clock = s.env.clock
      ∧ t.loop.lQueue = (if s.env.set.known a = true ∧ (s.env.set.head a).absorb = true then s.loop.lQueue
          else s.loop.offered .line bs)
      ∧ (∀ i, s.env.set.actAt a = some i →
          (t.jobs.act i).reported
              = items.foldl (reportedByStatus ((s.env.set.act i).kind == .heater)) (s.jobs.act i).reported
            ∧ (items.any (fun x => (stateCodeOf x.field1).isSome) = true → (t.jobs.act i).resp = .responsive)
            ∧ (t.jobs.act i).settled = (s.jobs.act i).settled ∧ s.jobs.OthersKeep i t.jobs)
      ∧ (s.env.set.actAt a = none → t.jobs.flight = s.jobs.flight
          ∧ ∀ i, (t.jobs.act i).view = (s.jobs.act i).view)

/-- R73, R75: an ACK to the own address from the head of an in-use actuator sets its reported state, item by item; an
answer to the action of its entry in AWAITING_ACK ends the entry, or sends a POSITION answered MOVING to TRAVELLING, and
sets or clears JAMMED for a POSITION; any other answer leaves the table. An ACK from another head is counted. -/
def Obligations.AckAnswersFlightEntry : Prop :=
  ∀ (bs : List Byte) (s : State), s.powered = true → s.Shaped → goodCell bs = true → cellKind bs = kindAck →
    cellDest bs = s.env.set.general.ownAddress →
    let items := slotsWith 0x21 bs
    ∃ t, exec (.ack bs) s = .next t ∧ t.env.set = s.env.set ∧ t.env.clock = s.env.clock
      ∧ t.loop.lQueue = s.loop.lQueue
      ∧ (s.env.set.actAt (cellSource bs) = none → t.jobs.flight = s.jobs.flight
          ∧ t.jobs.counters.bad3F = s.jobs.counters.bad3F + 1#32
          ∧ ∀ k, (t.jobs.act k).view = (s.jobs.act k).view)
      ∧ ∀ i, s.env.set.actAt (cellSource bs) = some i →
          (t.jobs.act i).reported = items.foldl reportedByAnswer (s.jobs.act i).reported
          ∧ (t.jobs.act i).settled = (s.jobs.act i).settled ∧ s.jobs.OthersKeep i t.jobs
          ∧ ∀ x code, items = [x] → stateCodeOf x.field2 = some code →
            (t.jobs.act i).resp = .responsive
            ∧ (∀ f, s.jobs.flightOf i = some f → f.travelling = false → f.action.code = x.field1 →
                match f.action with
                | .position opened =>
                    if code = .moving then
                      (t.jobs.act i).fault = (s.jobs.act i).fault
                        ∧ t.jobs.flight = s.jobs.flight.map (fun g => if g.idx = i then
                            { g with travelling := true, timer := s.env.now + s.env.set.general.valveTravel } else g)
                    else t.jobs.flight = s.jobs.flight.filter (fun g => g.idx != i)
                      ∧ (t.jobs.act i).fault =
                          (if code = (if opened then .opened else .closed) then
                            (if (s.jobs.act i).fault = .jammed then .none else (s.jobs.act i).fault)
                          else if code = .jammed then .jammed else (s.jobs.act i).fault)
                | _ => t.jobs.flight = s.jobs.flight.filter (fun g => g.idx != i)
                    ∧ (t.jobs.act i).fault = (s.jobs.act i).fault)
            ∧ ((s.jobs.flightOf i = none
                  ∨ ∃ f, s.jobs.flightOf i = some f ∧ (f.travelling = true ∨ f.action.code ≠ x.field1)) →
                t.jobs.flight = s.jobs.flight ∧ (t.jobs.act i).fault = (s.jobs.act i).fault)

/-- R73, R64, R66: an answer that ends an In-Flight Table entry in AWAITING_ACK hands its origin the result: DONE where the
answer fits the action, FAILED otherwise, and hands on nothing else. R76: a valve's STATUS ends its POSITION entry, in either
phase: at the position asked the entry is removed, a JAMMED fault is cleared and the origin told DONE; at JAMMED the entry is
removed, the fault set and the origin told FAILED; any other state leaves the entry and the fault, and tells nothing. -/
def Obligations.EndedEntryTellsItsOrigin : Prop :=
  (∀ (e : Env) (i : Nat) (x : Slot) (j : Jobs) (f : Flight) (code : StateCode),
    j.flightOf i = some f → f.travelling = false → f.action.code = x.field1 → stateCodeOf x.field2 = some code →
    let fits : Prop := match f.action with
      | .query => True
      | .switch on => code = (if on then .on else .off)
      | .duty d => (code = .duty ∧ x.field3 = d) ∨ (code = .off ∧ d = 0)
      | .position opened => code = (if opened then .opened else .closed)
    let moving : Prop := (∃ opened, f.action = .position opened) ∧ code = .moving
    (fits → (j.ackItem e i x).work = (j.tellOrigin e f.origin i f.action .done).work)
      ∧ (¬ fits → ¬ moving → (j.ackItem e i x).work = (j.tellOrigin e f.origin i f.action .failed).work)
      ∧ (¬ fits → moving → (j.ackItem e i x).work = j.work))
    ∧ ∀ (e : Env) (i : Nat) (x : Slot) (j : Jobs) (f : Flight) (opened : Bool) (code : StateCode), i < j.acts.length →
      j.flightOf i = some f → f.action = .position opened → stateCodeOf x.field1 = some code →
      (e.set.act i).kind ≠ .heater →
      let k := j.statusItem e i x
      let asked : StateCode := if opened then .opened else .closed
      (k.act i).reported = ⟨code, if code = .duty then x.field2 else 0, (j.act i).reported.units⟩
        ∧ (code = asked → k.flight = j.flight.filter (fun g => g.idx != i)
            ∧ (k.act i).fault = (if (j.act i).fault = .jammed then .none else (j.act i).fault)
            ∧ k.work = (j.tellOrigin e f.origin i f.action .done).work)
        ∧ (code = .jammed → k.flight = j.flight.filter (fun g => g.idx != i) ∧ (k.act i).fault = .jammed
            ∧ k.work = (j.tellOrigin e f.origin i f.action .failed).work)
        ∧ (code ≠ asked → code ≠ .jammed → k.flight = j.flight ∧ (k.act i).fault = (j.act i).fault ∧ k.work = j.work)

/-- R74: an entry in AWAITING_ACK that times out is removed and counted, its actuator is UNRESPONSIVE and ACTUATOR_LOST is
raised; one in TRAVELLING is removed with the reported state and the fault JAMMED. The settled command stays, and no other
actuator moves. -/
def Obligations.TimeoutsEndFlightEntry : Prop :=
  ∀ (i : Nat) (s : State) (f : Flight), s.powered = true → s.Shaped → i < 12 → s.jobs.flightOf i = some f →
    (f.travelling = false → ∃ t, exec (.ackTimeoutExpiry i) s = .next t ∧ t.env = s.env ∧ s.loop.SameBut t.loop
        ∧ t.jobs.flight = s.jobs.flight.filter (fun g => g.idx != i)
        ∧ (t.jobs.act i).resp = .unresponsive ∧ (t.jobs.act i).reported = (s.jobs.act i).reported
        ∧ (t.jobs.act i).fault = (s.jobs.act i).fault ∧ (t.jobs.act i).settled = (s.jobs.act i).settled
        ∧ t.jobs.counters.ackTimeouts10 = s.jobs.counters.ackTimeouts10 + 1#32
        ∧ t.jobs.active .actuatorLost = true ∧ s.jobs.OthersKeep i t.jobs)
      ∧ (f.travelling = true → ∃ t, exec (.valveTravelExpiry i) s = .next t ∧ t.env = s.env ∧ s.loop.SameBut t.loop
        ∧ t.jobs.flight = s.jobs.flight.filter (fun g => g.idx != i)
        ∧ (t.jobs.act i).reported = ⟨.jammed, 0, (s.jobs.act i).reported.units⟩ ∧ (t.jobs.act i).fault = .jammed
        ∧ (t.jobs.act i).settled = (s.jobs.act i).settled
        ∧ t.jobs.counters.ackTimeouts10 = s.jobs.counters.ackTimeouts10 ∧ s.jobs.OthersKeep i t.jobs)

/-- R78, R79, R65: an intercepted SWITCH off, POSITION or DUTY that passes its checks joins the tail of the Command Queue,
rests the pump and withdraws its claim for a SWITCH off, and starts the operator hold; what that causes in the other blocks
follows. What the hold's start leaves: the hold from the present time with its timer, told to the Fill controller or the
Frost unit (R79). What a queued OFF of a pump leaves: its rest timer started afresh unless MIN_REST is 0 (R65), its operator
claim absent (R139), and a pass first of what is told (R139); nothing for any other command. The claim is that of the pump
which the entry then is: that an entry which a HEADS write has made no pump withdraws none is the model's choice (log 29). -/
def Obligations.OperatorCommandIsQueued : Prop :=
  (∀ (bs : List Byte) (s : State) (i : Nat) (x : OperatorItem), s.Ready → Intercepted bs s i [x] →
    s.jobs.operatorChecks s.env i x = none → s.jobs.RoomFor i →
    let queued : Host.Outcome State Fault Refusal := .next ((lineCounted s).work (fun e j =>
      (({ j with queue := j.queue ++ [QueueItem.cmd i x.action .operator] }).afterQueued e i x.action).startHold e i)).creditWatch
    (x = .switch 0 → exec (.operatorSwitch bs) s = queued)
      ∧ (∀ field, x = .position field → exec (.operatorPosition bs) s = queued)
      ∧ ∀ d, x = .duty d → exec (.operatorDuty bs) s = queued)
    ∧ (∀ (e : Env) (j : Jobs) (i : Nat), i < j.acts.length →
      let k := j.startHold e i
      let told : List Event := match (e.set.act i).kind with
        | .pump => [.fillEval]
        | .valveInlet => [.fillEval]
        | .valveDrain => []
        | .heater => [.frostHold i true]
      k = { j with acts := k.acts, work := j.work ++ told }
        ∧ k.act i = { j.act i with hold := some ⟨e.clock.tow, e.now + e.set.general.operatorHoldLimit⟩ }
        ∧ ∀ m, m ≠ i → k.act m = j.act m)
    ∧ ∀ (e : Env) (j : Jobs) (i : Nat) (a : Action), i < j.acts.length →
      let k := j.afterQueued e i a
      let off := a = .switch false ∧ (e.set.act i).kind = .pump
      let claimed := fun m => ∃ n, e.set.pumpNumber i = some n ∧ m = n - 1 ∧ (j.claim m).operator = true
      (¬ off → k = j)
        ∧ (off → k = { j with acts := k.acts, power := { j.power with claims := k.power.claims }, work := k.work }
          ∧ k.act i = { j.act i with
              rest := if e.set.general.minRest = 0 then (j.act i).rest else some (e.now + e.set.general.minRest) }
          ∧ (∀ m, m ≠ i → k.act m = j.act m)
          ∧ (∀ m, claimed m → k.claim m = { j.claim m with operator := false })
          ∧ (∀ m, ¬ claimed m → k.claim m = j.claim m)
          ∧ ((e.set.general.minRest ≠ 0 ∨ ∃ m, claimed m) → k.work.head? = some .pass)
          ∧ (e.set.general.minRest = 0 → (¬ ∃ m, claimed m) → k.work = j.work))

/-- R78, R139: an intercepted SWITCH on that passes its checks posts the operator claim, whose pass is taken first. With the
full grant the command joins the Command Queue and the hold starts; without it the item is refused with NO_POWER and the
claim withdrawn. A withdrawal leaves the pump's operator claim absent with a pass first of what is told, and moves nothing
else; without a claim it does nothing. The claim is that of the pump which the entry then is: that an entry which a HEADS write
has made no pump withdraws none is the model's choice (log 29). -/
def Obligations.OperatorStartNeedsFullGrant : Prop :=
  (∀ (bs : List Byte) (s : State) (i n : Nat), s.Ready → Intercepted bs s i [.switch 1] →
    s.jobs.operatorChecks s.env i (.switch 1) = none → s.env.set.pumpNumber i = some n →
    let posted := fun (e : Env) (j : Jobs) => j.postOperator e n
    let j := posted s.env (lineCounted s).jobs
    ((s.env.set.act i).rated ≤ (j.claim (n - 1)).granted → j.RoomFor i →
        exec (.operatorSwitch bs) s = .next ((lineCounted s).work (fun e k =>
          ({ posted e k with queue := (posted e k).queue ++ [QueueItem.cmd i (.switch true) .operator] }).startHold e i)).creditWatch)
      ∧ ((j.claim (n - 1)).granted < (s.env.set.act i).rated →
        exec (.operatorSwitch bs) s = .next ((lineCounted s).work (fun e k =>
          ((posted e k).refuse e .operator i (.switch true) .noPower).withdrawOperator e i)).creditWatch))
    ∧ ∀ (e : Env) (j : Jobs) (i : Nat),
      let k := j.withdrawOperator e i
      ((∀ n, e.set.pumpNumber i = some n → (j.claim (n - 1)).operator = false) → k = j)
        ∧ ∀ n, e.set.pumpNumber i = some n → (j.claim (n - 1)).operator = true →
          k = { j with power := { j.power with claims := k.power.claims }, work := .pass :: j.work }
            ∧ k.claim (n - 1) = { j.claim (n - 1) with operator := false } ∧ ∀ m, m ≠ n - 1 → k.claim m = j.claim m

/-- R78, R62: an intercepted QUERY joins the tail of the Command Queue and moves nothing else: no hold starts, and no
commanded state changes. -/
def Obligations.OperatorQueryIsQueued : Prop :=
  ∀ (bs : List Byte) (s : State) (i : Nat), s.Ready → Intercepted bs s i [.query] →
    (s.env.set.act i).manual = false → s.jobs.RoomFor i →
    exec (.operatorQuery bs) s = .next
      ({ lineCounted s with jobs := { (lineCounted s).jobs with
          queue := s.jobs.queue ++ [QueueItem.cmd i .query .operator] } }).creditWatch

/-- R66, R78: an intercepted item for a MANUAL actuator is refused with MANUAL: it is counted, a REFUSAL notice with that
reason is posted, and the Command Queue, the holds, the flight and the actuators stay; a RELEASE apart, which is no
request. -/
def Obligations.ManualActuatorRefusesOperator : Prop :=
  ∀ (bs : List Byte) (s : State) (i : Nat) (x : OperatorItem), s.Ready → Intercepted bs s i [x] →
    (s.env.set.act i).manual = true → x ≠ .release →
    ∀ c ∈ [Instr.operatorSwitch bs, .operatorPosition bs, .operatorDuty bs, .operatorQuery bs],
      let refused := (lineCounted s).jobs.refuse s.env .operator i x.action .manual
      ∃ t, exec c s = .next t ∧ t = ((lineCounted s).work (fun e j => j.refuse e .operator i x.action .manual)).creditWatch
        ∧ t.jobs.tele = refused.tele
        ∧ refused.tele = (lineCounted s).jobs.tele.postNotice (teleEnv s.env (lineCounted s).jobs)
            (.refusal i x.action.code Reason.manual.code)
        ∧ t.jobs.queue = s.jobs.queue ∧ t.jobs.flight = s.jobs.flight ∧ t.jobs.acts = s.jobs.acts
        ∧ t.jobs.counters = { s.jobs.counters with
            received2L := s.jobs.counters.received2L + 1#32, refusals11 := s.jobs.counters.refusals11 + 1#32 }
        ∧ t.env = s.env ∧ s.loop.SameBut t.loop

/-- R79: a RELEASE, and the expiry of the hold timer, end an operator hold: the hold is gone afterwards, whatever that
causes, HOLD_ENDED is noticed with the cause, and a parked request is taken as a new one. Without a hold nothing happens. That
the HOLD_ENDED notice and the telling of the hold's end come before what the parked request does is the model's choice, which
R79 leaves open (log 26). -/
def Obligations.HoldEndsByReleaseOrExpiry : Prop :=
  (∀ (bs : List Byte) (s : State) (i : Nat), s.Ready → s.Shaped → i < 12 → Intercepted bs s i [.release] →
    ((s.jobs.act i).hold = none → exec (.operatorRelease bs) s = .next (lineCounted s).creditWatch)
      ∧ ((s.jobs.act i).hold ≠ none → ∃ t, exec (.operatorRelease bs) s = .next t ∧ (t.jobs.act i).hold = none
          ∧ t = ((lineCounted s).work (fun e j => j.holdOver e 1 i)).creditWatch))
    ∧ ∀ (s : State) (i : Nat), s.Ready → s.Shaped → i < 12 →
      ((s.jobs.act i).hold = none → exec (.holdTimerExpiry i) s = .next s.creditWatch)
        ∧ ((s.jobs.act i).hold ≠ none → ∃ t, exec (.holdTimerExpiry i) s = .next t ∧ (t.jobs.act i).hold = none
            ∧ t = (s.work (fun e j => j.holdOver e 3 i)).creditWatch)

/-- R67, R71, R78: a FENCE cell to the own address or 0 queues one fence at the tail behind a waiting command or a command in
flight; with neither the leading fence is removed at once; at a full queue it is dropped, counted as a refusal, and
QUEUE_FULL is active. -/
def Obligations.FenceJoinsQueue : Prop :=
  ∀ (bs : List Byte) (s : State), s.Ready → s.Shaped → goodCell bs = true → cellKind bs = kindFence →
    (cellDest bs = s.env.set.general.ownAddress ∨ cellDest bs = 0 ∨ (s.env.set.governedAt (cellDest bs)).isSome = true) →
    (s.jobs.queue.length < 16 → (s.jobs.flight ≠ [] ∨ ∃ i a o rest, s.jobs.queue = QueueItem.cmd i a o :: rest) →
        exec (.fence bs) s = .next ({ lineCounted s with jobs := { (lineCounted s).jobs with
          queue := s.jobs.queue ++ [QueueItem.fence false] } }).creditWatch)
      ∧ (s.jobs.queue = [] → s.jobs.flight = [] → s.jobs.active .queueFull = false →
        exec (.fence bs) s = .next (lineCounted s).creditWatch)
      ∧ (16 ≤ s.jobs.queue.length → ∃ t, exec (.fence bs) s = .next t ∧ t.jobs.queue = s.jobs.queue
        ∧ t.jobs.counters = { s.jobs.counters with
            received2L := s.jobs.counters.received2L + 1#32, refusals11 := s.jobs.counters.refusals11 + 1#32 }
        ∧ t.jobs.active .queueFull = true ∧ t.jobs.acts = s.jobs.acts ∧ t.jobs.flight = s.jobs.flight)

/-- R65, R90, R139: the expiry of a pump's running rest timer stops it and tells the Fill controller and the Power
allotment, whose evaluation and pass follow; without a running timer nothing happens. While the timer runs a pump SWITCH on
is refused with RESTING, whatever the origin: the taking of a request refuses it, and so do the checks of an operator's
item. -/
def Obligations.RestTimerBarsAndFreesPump : Prop :=
  (∀ (i : Nat) (s : State), s.Ready →
    ((s.jobs.act i).rest = none → exec (.restTimerExpiry i) s = .next s.creditWatch)
      ∧ ((s.jobs.act i).rest ≠ none → exec (.restTimerExpiry i) s = .next (s.work (fun _ j =>
          (j.updateAct i (fun a => { a with rest := none })).tell [.fillEval, .pass])).creditWatch))
    ∧ ∀ (e : Env) (j : Jobs) (i : Nat) (o : Origin), (e.set.act i).kind = .pump → (j.act i).rest ≠ none →
      (e.set.act i).manual = false → ((j.act i).hold = none ∨ o.parks = false) →
      j.guard.latch = false → j.guard.band ≠ .highHigh →
      (j.take e o i (.switch true)).1 = j.refuse e o i (.switch true) .resting
        ∧ j.operatorChecks e i (.switch 1) = some .resting

/-- R69: a guard group is placed behind the guard items and before every other item: the guard items that stood and the
others keep their order, and no two guard fences stand next to each other before the others. R67, R69, R70: every step keeps
at most 16 items in the Command Queue, the guard items first, and at most one guard command for an actuator, with what that
rests on (`State.QueueKept`): the Actuator Table's numbers (R60), guard commands for pumps and valves alone, and no parked
guard command. -/
def Obligations.GuardGroupGoesFirst : Prop :=
  (∀ (group : List Ask) (q : List QueueItem), (∀ x ∈ q.dropWhile QueueItem.isGuard, x.isGuard = false) →
    (placeGroup group q).filter (fun x => !x.isGuard) = q.filter (fun x => !x.isGuard)
      ∧ (∀ x ∈ (placeGroup group q).dropWhile QueueItem.isGuard, x.isGuard = false)
      ∧ ((placeGroup group q).filter (fun x => x.isGuard && !x.isFence))
          = (q.filter (fun x => x.isGuard && !x.isFence))
            ++ (group.map guardItem).filter (fun x => !x.isFence)
      ∧ ∀ a b, placeGroup group q ≠ a ++ QueueItem.fence true :: QueueItem.fence true :: b)
    ∧ ∀ s t : State, s.QueueKept → step s = .next t → t.QueueKept

/-! ## The Tariff clock (spec/05) -/

/-- R83, R84: a CLOCK cell to the own address or 0 with a valid first TIME item sets the time of week, the clock becomes
SYNCED with its stale timer started, CLOCK_UNSET and CLOCK_STALE are inactive, and a jump past 120 s counts unless the clock
was UNSET. Without a valid item the cell is counted and nothing else moves. A copy of a cell to 0 goes on downstream. -/
def Obligations.ClockCellSetsTime : Prop :=
  ∀ (bs : List Byte) (s : State), s.Ready → goodCell bs = true → cellKind bs = kindClock →
    (cellDest bs = s.env.set.general.ownAddress ∨ cellDest bs = 0) →
    let counted : State := { s with jobs := { s.jobs with counters := { s.jobs.counters with
      received2L := s.jobs.counters.received2L + 1#32, bad4L := s.jobs.counters.bad4L + 1#32 } } }
    let discarded : Host.Outcome State Fault Refusal :=
      .next (if cellDest bs = 0 then counted.offer .field bs else counted).creditWatch
    (slotsWith 0x40 bs = [] → exec (.clock bs) s = discarded)
      ∧ ∀ (x : Slot) (rest : List Slot), slotsWith 0x40 bs = x :: rest →
        let minute := x.field1 * 256 + x.field2
        ((10079 < minute ∨ 59 < x.field3) → exec (.clock bs) s = discarded)
        ∧ (minute ≤ 10079 → x.field3 ≤ 59 → ∃ t, exec (.clock bs) s = .next t
            ∧ t.env.clock.tow = ⟨minute, x.field3⟩ ∧ t.env.clock.state = .synced
            ∧ t.env.clock.stale = some (s.env.now + s.env.set.general.clockStaleHours * 3600)
            ∧ t.env.clock.tariff = t.env.clock.derived s.env.set
            ∧ t.env.set = s.env.set ∧ t.env.heads = s.env.heads ∧ t.env.now = s.env.now
            ∧ t.jobs.active .clockUnset = false ∧ t.jobs.active .clockStale = false
            ∧ t.jobs.counters.clockJumps13 = (if s.env.clock.state ≠ .unset
                ∧ 120 < jump s.env.clock.tow ⟨minute, x.field3⟩ then s.jobs.counters.clockJumps13 + 1#32
              else s.jobs.counters.clockJumps13)
            ∧ t.loop.fQueue = (if cellDest bs = 0 then s.loop.offered .field bs else s.loop.fQueue)
            ∧ t.loop.lQueue = s.loop.lQueue ∧ t.jobs.flight = s.jobs.flight
            ∧ ∀ i, (t.jobs.act i).view = (s.jobs.act i).view)

/-- R82, R63: a second advances the internal timer and the time of week, and counts one second of run time of each in-use
pump reported ON. The step past second 59 is the minute boundary: the minute follows, the last of the week giving way to the
first, and the Tariff State is derived. The row of the boundary acts at second 59 alone (log 3). -/
def Obligations.SecondTickMovesTime : Prop :=
  (∀ s : State, s.powered = true → s.Shaped →
    let c := s.env.clock
    ∃ t, exec .secondTick s = .next t ∧ (59 ≤ c.tow.second → exec .minuteBoundary s = .next t)
      ∧ t.env.now = s.env.now + 1 ∧ t.env.set = s.env.set ∧ t.env.heads = s.env.heads
      ∧ t.env.clock.state = c.state ∧ t.env.clock.stale = c.stale ∧ s.loop.SameBut t.loop ∧ t.jobs.flight = s.jobs.flight
      ∧ (c.tow.second < 59 → t.env.clock.tow = ⟨c.tow.minute, c.tow.second + 1⟩ ∧ t.env.clock.tariff = c.tariff)
      ∧ (59 ≤ c.tow.second → t.env.clock.tow = ⟨if c.tow.minute < 10079 then c.tow.minute + 1 else 0, 0⟩
          ∧ t.env.clock.tariff = t.env.clock.derived s.env.set)
      ∧ ∀ i < 12,
          let a := s.jobs.act i
          let runs := s.env.set.actInUse i = true ∧ (s.env.set.act i).kind = .pump ∧ a.reported.code = .on
          (t.jobs.act i).runSeconds = (if runs then (if a.runSeconds < 59 then a.runSeconds + 1 else 0) else a.runSeconds)
            ∧ (t.jobs.act i).runMinutes = (if runs ∧ 59 ≤ a.runSeconds then a.runMinutes + 1#32 else a.runMinutes)
            ∧ (t.jobs.act i).reported = a.reported ∧ (t.jobs.act i).resp = a.resp ∧ (t.jobs.act i).fault = a.fault
            ∧ (t.jobs.act i).settled = a.settled)
    ∧ ∀ s : State, s.Ready → s.env.clock.tow.second < 59 → exec .minuteBoundary s = .next s.creditWatch

/-- R83, R86: the expiry of the running clock-stale timer makes the clock DRIFTING, stops the timer, raises CLOCK_STALE and
derives the Tariff State; without a running timer nothing happens. The derived state is that of the lowest-indexed in-use
window that holds the present minute, a window past the week's end included, and DEAR at the default cap without one and
while the clock is UNSET. -/
def Obligations.TariffStateFollowsClock : Prop :=
  (∀ s : State, s.Ready → s.env.clock.stale = none → exec .clockStaleExpiry s = .next s.creditWatch)
    ∧ (∀ s : State, s.powered = true → s.Shaped → s.env.clock.stale ≠ none →
      ∃ t, exec .clockStaleExpiry s = .next t
        ∧ t.env = { s.env with clock := { s.env.clock with
            state := .drifting, stale := none, tariff := t.env.clock.derived s.env.set } }
        ∧ t.jobs.active .clockStale = true ∧ s.loop.SameBut t.loop ∧ t.jobs.flight = s.jobs.flight
        ∧ ∀ i, (t.jobs.act i).view = (s.jobs.act i).view)
    ∧ ∀ (set : Settings) (c : Clock),
      let inside := fun (w : TariffEntry) => w.used = true
        ∧ ((w.start < w.stop ∧ w.start ≤ c.tow.minute ∧ c.tow.minute < w.stop)
          ∨ (w.stop < w.start ∧ (w.start ≤ c.tow.minute ∨ c.tow.minute < w.stop)))
      let dear : TariffState := { band := .dear, window := none, cap := set.defaultCap, target := none }
      (c.state = .unset → c.derived set = dear)
        ∧ ((∀ w ∈ set.tariff, ¬ inside w) → c.derived set = dear)
        ∧ ∀ (before after : List TariffEntry) (w : TariffEntry), c.state ≠ .unset →
            set.tariff = before ++ w :: after → inside w → (∀ x ∈ before, ¬ inside x) →
            c.derived set = { band := w.band, window := some ⟨before.length, w.start, w.stop⟩, cap := w.cap,
                              target := some w.target }

/-! ## The Fill controller (spec/05) -/

/-- R100, R101: the expiry of a pump's prove timer while it is PROVING faults the pump NO_FLOW when the inlet meter is LIVE
and else leaves the run PROVED and unmetered; the expiry of its dry timer faults it DRY_RUN. A faulted pump's run is STOPPED
and PUMP_FAULT is active. Without a running timer nothing happens. -/
def Obligations.PumpTimersFaultPump : Prop :=
  (∀ (n : Nat) (s : State), s.Ready →
    ((s.jobs.run n).prove = none → exec (.proveTimerExpiry n) s = .next s.creditWatch)
      ∧ ((s.jobs.run n).dry = none → exec (.dryTimerExpiry n) s = .next s.creditWatch)
      ∧ ((s.jobs.run n).prove ≠ none → (s.jobs.run n).phase = .proving → s.env.inletLive = false →
          exec (.proveTimerExpiry n) s = .next ({ s with jobs := s.jobs.updateRun n (fun r =>
            { r with phase := .proved, metered := false, prove := none }) }).creditWatch)
      ∧ ∀ i, s.Shaped → s.env.set.pump n = some i →
          ((s.jobs.run n).prove ≠ none → (s.jobs.run n).phase = .proving → s.env.inletLive = true →
            ∃ t, exec (.proveTimerExpiry n) s = .next t ∧ (t.jobs.act i).fault = .noFlow
              ∧ (t.jobs.act i).reported = (s.jobs.act i).reported ∧ (t.jobs.act i).settled = (s.jobs.act i).settled
              ∧ s.jobs.OthersKeep i t.jobs ∧ t.env = s.env ∧ s.loop.SameBut t.loop ∧ t.jobs.flight = s.jobs.flight)
          ∧ ((s.jobs.run n).dry ≠ none →
            ∃ t, exec (.dryTimerExpiry n) s = .next t ∧ (t.jobs.act i).fault = .dryRun
              ∧ (t.jobs.act i).reported = (s.jobs.act i).reported ∧ (t.jobs.act i).settled = (s.jobs.act i).settled
              ∧ s.jobs.OthersKeep i t.jobs ∧ t.env = s.env ∧ s.loop.SameBut t.loop ∧ t.jobs.flight = s.jobs.flight))
    ∧ ∀ (e : Env) (j : Jobs) (n i : Nat) (f : ActFault), (n = 1 ∨ n = 2) → e.set.pump n = some i →
      i < j.acts.length → j.runs.length = 2 → j.tele.conds.length = 22 →
      ((j.faultPump e n f).act i).fault = f ∧ ((j.faultPump e n f).run n).phase = .stopped
        ∧ (j.faultPump e n f).active .pumpFault = true

/-- R92: the minutes needed are the deficit over the flow used, rounded up and at most 65535; and while the present minute
lies in the window, the committed test holds exactly from the must-start minute on. -/
def Obligations.CommittedFromMustStart : Prop :=
  (∀ deficit flow : Nat, minutesNeeded deficit flow ≤ 65535 ∧ minutesNeeded 0 flow = 0
      ∧ (0 < deficit → minutesNeeded deficit 0 = 65535)
      ∧ ∀ k < 65535, 0 < flow → (minutesNeeded deficit flow ≤ k ↔ deficit ≤ k * flow))
    ∧ ∀ (e : Env) (j : Jobs) (w : Window), e.clock.tariff.window = some w → j.fill.cheap = true →
      w.start < 10080 → w.stop < 10080 → e.clock.tow.minute < 10080 →
      let since := fun m => (m + 10080 - w.start) % 10080
      since e.clock.tow.minute < since w.stop →
      ∃ m, (j.figure e).fill.mustStart = some m
        ∧ ((j.figure e).fill.committedTest e.set.general.fillMargin = true ↔ since m ≤ since e.clock.tow.minute)

/-! ## The Overflow guard (spec/06) -/

/-- R107: the band that a guard evaluation leaves: TRIP at a wet float or a guard level at or above TRIP_MM, and while the
latch is set; upward the highest band whose boundary the level has reached; downward band by band while the level is below
the band's own boundary minus HYST_MM. In BLIND a wet float alone enters TRIP, and the other steps
keep the band (the reading of R107 that log 10 names). -/
def Obligations.BandFollowsLevel : Prop :=
  ∀ (e : Env) (j : Jobs) (cause : BlindCause),
    let s := e.set.guard
    let level := j.level.guard
    let old := j.guard.band
    let new := (j.guardEvaluate e cause).guard.band
    let blind := j.level.fusion = .blind
    let trips := j.guard.float = .wet ∨ (¬ blind ∧ s.trip ≤ level)
    let rises := ∃ b : GuardBand, old.code < b.code ∧ s.boundary b ≤ level
    (trips → new = .trip)
      ∧ (¬ trips → j.guard.latch = true → new = .trip)
      ∧ (¬ trips → j.guard.latch = false → blind → new = old)
      ∧ (¬ trips → j.guard.latch = false → ¬ blind → rises →
          s.boundary new ≤ level ∧ ∀ b : GuardBand, new.code < b.code → level < s.boundary b)
      ∧ (¬ trips → j.guard.latch = false → ¬ blind → ¬ rises →
          new.code ≤ old.code
            ∧ (∀ b : GuardBand, new.code < b.code → b.code ≤ old.code → level + s.hyst < s.boundary b)
            ∧ (new = .normal ∨ s.boundary new ≤ level + s.hyst))

/-- R114: a RELEASE_TRIP from the local source: DONE without effect while the latch is clear; NOT_SAFE without effect while
the release is not safe; and else the release, answered DONE once what it causes is taken. The release clears the latch,
the demands and the three overflow conditions, derives the band NORMAL and asks for the latch word to be written. -/
def Obligations.ReleaseNeedsSafety : Prop :=
  (∀ (p : Port) (bs : List Byte) (r : Request) (s : State), s.Ready → s.Requested p bs r → r.kind = 11 →
    r.source = .local →
    let s1 := s.received p bs
    let safe := s.jobs.level.fusion ≠ .blind ∧ s.jobs.level.guard < s.env.set.guard.high
      ∧ (s.jobs.guard.float = .dry ∨ s.jobs.guard.float = .none)
    (s.jobs.guard.latch = false → exec (.releaseTrip p bs) s = .next (s1.answer r .done []).creditWatch)
      ∧ (s.jobs.guard.latch = true → ¬ safe →
          exec (.releaseTrip p bs) s = .next (s1.answer r .notSafe []).creditWatch)
      ∧ (s.jobs.guard.latch = true → safe →
          exec (.releaseTrip p bs) s = .next ((s1.work (fun e j => j.release e)).answer r .done []).creditWatch))
    ∧ ∀ (e : Env) (j : Jobs), j.tele.conds.length = 22 → j.level.guard < e.set.guard.high →
      e.set.guard.high < e.set.guard.hihi → e.set.guard.hihi < e.set.guard.trip →
      (j.release e).guard = { j.guard with
          latch := false, band := .normal, pumpDemand := false, inletDemand := false, drainDemand := none }
        ∧ (j.release e).store = j.store.ask false
        ∧ (j.release e).active .overflowTrip = false ∧ (j.release e).active .overflowInhibit = false
        ∧ (j.release e).active .overflowNear = false

/-- R115: the expiry of the running blind start timer stops it; the guard evaluation that it makes leaves LEVEL_BLIND active
while the fusion state is BLIND, and as it was otherwise. Without a running timer nothing happens. -/
def Obligations.BlindStartRaisesLevelBlind : Prop :=
  (∀ s : State, s.Ready →
    (s.jobs.guard.blindStart = none → exec .blindStartTimerExpiry s = .next s.creditWatch)
      ∧ (s.jobs.guard.blindStart ≠ none → ∃ t, exec .blindStartTimerExpiry s = .next t
          ∧ t = (s.work Jobs.blindStartExpiry).creditWatch ∧ t.jobs.guard.blindStart = none ∧ t.env = s.env
          ∧ s.loop.SameBut t.loop ∧ t.jobs.flight = s.jobs.flight
          ∧ ∀ i, (t.jobs.act i).view = (s.jobs.act i).view))
    ∧ ∀ (e : Env) (j : Jobs), j.tele.conds.length = 22 → j.guard.blindStart ≠ none →
      (j.level.fusion = .blind → (j.blindStartExpiry e).active .levelBlind = true)
        ∧ (j.level.fusion ≠ .blind → (j.blindStartExpiry e).tele.flags .levelBlind = j.tele.flags .levelBlind)

/-! ## The Frost unit (spec/07) -/

/-- R124: the T_eff that a zone's evaluation leaves: the probe temperature plus the air correction minus the stagnation
offset, clamped to −600..1270; absent with the probe temperature. -/
def Obligations.EffectiveTemperature : Prop :=
  ∀ (e : Env) (j : Jobs) (z : Nat), z < j.frost.zones.length → e.set.fitted z = true →
    let s := e.set.shared
    let compensated := (e.set.zone z).compensated
    let correction : Int := match j.frost.air with
      | none => 0
      | some air =>
          let d := air - s.pivot
          if compensated = false then 0
          else match (if 0 ≤ d then s.cUp else s.cDn) with
            | .one => d
            | .half => d.fdiv 2
            | .quarter => d.fdiv 4
            | .none => 0
    let offset : Int := if compensated = true ∧ s.stagnantAfter ≤ j.frost.age then s.stagnationOffset else 0
    ((j.zoneEvaluate e z).zone z).tEff
      = (j.zone z).probe.map (fun t => max (-600) (min 1270 (t + correction - offset)))

/-- R126, R127: the curve of a zone whose boundaries fall. STAGE: the raw segment holds T_eff; a colder one is taken at
once, a warmer one only past its lower boundary plus H, the warmest first. LINEAR: the computed duty interpolates between
the boundaries, truncating, and the curve duty follows it through the anchor. -/
def Obligations.CurveFollowsTemperature : Prop :=
  ∀ (s : ZoneSettings) (t : Int) (z : Zone), s.b2 < s.b1 → s.b3 < s.b2 → s.b4 < s.b3 →
    let raw := s.rawSegment t
    let z' := z.curveAt s t
    (raw ≤ 4 ∧ (raw < 4 → s.lower raw ≤ t) ∧ (0 < raw → t < s.lower (raw - 1)))
      ∧ (s.mode = .stage → ∃ n, z'.segment = some n ∧ z'.curve = s.duty n ∧ z'.anchor = z.anchor
          ∧ (z.segment = none → n = raw)
          ∧ ∀ h ≤ 4, z.segment = some h →
              (h ≤ raw → n = raw)
              ∧ ∀ k, raw < h →
                  (raw ≤ k → k < h → s.lower k + s.h ≤ t → (∀ m < k, raw ≤ m → t < s.lower m + s.h) → n = k)
                  ∧ ((∀ m < h, raw ≤ m → t < s.lower m + s.h) → n = h))
      ∧ (s.mode = .linear → ∃ c : Nat,
          (s.b1 ≤ t → c = s.d0)
          ∧ (∀ k, 1 ≤ k → k ≤ 3 → s.lower k ≤ t → t < s.lower (k - 1) →
              (c : Int) = s.duty k
                + Int.tdiv ((s.lower (k - 1) - t) * ((s.duty (k + 1) : Int) - s.duty k)) (s.lower (k - 1) - s.lower k))
          ∧ (t < s.b4 → c = s.d4)
          ∧ z'.segment = z.segment
          ∧ (z.anchor = none → z'.curve = c ∧ z'.anchor = some t)
          ∧ ∀ a, z.anchor = some a →
              (z.curve < c → z'.curve = c ∧ z'.anchor = some t)
              ∧ (c < z.curve → a + s.h ≤ t → z'.curve = c ∧ z'.anchor = some t)
              ∧ (c < z.curve → t < a + s.h → z'.curve = z.curve ∧ z'.anchor = some a)
              ∧ (c = z.curve → z'.curve = z.curve ∧ z'.anchor = some a))

/-- R133, R134: the expiry of a heater's prove timer in PROVING or PROVED sets the heater's fault to NO_HEAT, and no other
actuator's; the zone is then FAILED, IDLE, claims nothing and is granted no duty, and HEATER_FAIL is active. In IDLE, or
without a running timer, nothing happens. -/
def Obligations.HeaterProveExpiryFailsHeater : Prop :=
  (∀ (z : Nat) (s : State), s.Ready →
    (((s.jobs.zone z).timer = none ∨ (s.jobs.zone z).proving = .idle) →
        exec (.heaterProveTimerExpiry z) s = .next s.creditWatch)
      ∧ ∀ i, s.Shaped → (s.jobs.zone z).timer ≠ none → (s.jobs.zone z).proving ≠ .idle → s.env.set.heater z = some i →
        ∃ t, exec (.heaterProveTimerExpiry z) s = .next t ∧ (t.jobs.act i).fault = .noHeat
          ∧ (t.jobs.act i).reported = (s.jobs.act i).reported ∧ (t.jobs.act i).settled = (s.jobs.act i).settled
          ∧ s.jobs.OthersKeep i t.jobs ∧ t.env = s.env ∧ s.loop.SameBut t.loop ∧ t.jobs.flight = s.jobs.flight)
    ∧ ∀ (e : Env) (j : Jobs) (z i : Nat), e.set.heater z = some i → i < j.acts.length → z < j.frost.zones.length →
      j.tele.conds.length = 22 →
      let k := j.failHeater e z
      (k.zone z).state = .failed ∧ (k.zone z).proving = .idle ∧ (k.zone z).timer = none
        ∧ (k.zone z).claimClass = .none ∧ (k.zone z).claimUnits = 0 ∧ (k.zone z).grantedDuty = 0
        ∧ k.active .heaterFail = true

/-! ## The Power allotment (spec/08) -/

/-- R142: whatever the claims and the cap, the walk never grants more than the cap; no claim is granted more than it
requests, a pump all or nothing; a pump that is granted nothing did not fit what the walk leaves; class NONE is granted
nothing; and nothing but the grants moves. -/
def Obligations.WalkNeverExceedsCap : Prop :=
  ∀ (set : Settings) (cap : Nat) (claims : List Claim),
    let w := walk set cap claims
    (w.1.map (·.granted)).sum + w.2 = cap
      ∧ w.1.map (fun c => { c with granted := 0 }) = claims.map (fun c => { c with granted := 0 })
      ∧ (∀ c ∈ w.1, c.granted ≤ c.requested ∧ (c.cls = .none → c.granted = 0))
      ∧ ∀ n < 2, ∀ c, w.1[n]? = some c →
          (c.granted = 0 ∨ c.granted = c.requested) ∧ (c.cls ≠ .none → c.granted = 0 → 0 < c.requested → w.2 < c.requested)

/-! ## The Condition and Report units (spec/09, spec/10) -/

/-- R149, R150, R154, R152: a raise of an inactive kind, a clear of an active one and an acknowledgement of an active,
unacknowledged one move exactly the kind's own marks, count and times; a raised URGENT kind stands on the urgent due list or
in the urgent cell. Each of the three changes nothing where it finds the kind otherwise, and OVERFLOW_TRIP is not cleared
while the trip latch is set. -/
def Obligations.ConditionMoves : Prop :=
  ∀ (v : TeleEnv) (t : Tele) (k : CondKind), t.conds.length = 22 →
    let c := t.cond k
    let now := some v.tow
    let entry := fun (x : Cond) => (x.active, x.acked, x.occurrences, x.first, x.last)
    let others := fun t' : Tele => ∀ m, m ≠ k → entry (t'.cond m) = entry (t.cond m)
    let held := k = .overflowTrip ∧ v.latch = true
    (c.active = true → t.raise v k = t)
      ∧ (c.active = false → entry ((t.raise v k).cond k) = (true, false, min 255 (c.occurrences + 1), now, now)
          ∧ others (t.raise v k)
          ∧ (k.urgent = true → (t.raise v k).urgentDue.contains k = true ∨ (t.raise v k).urgent.hasKind k = true))
      ∧ ((c.active = false ∨ held) → t.clear v k = t)
      ∧ (c.active = true → ¬ held → entry ((t.clear v k).cond k) = (false, c.acked, c.occurrences, c.first, now)
          ∧ others (t.clear v k))
      ∧ ((c.active = false ∨ c.acked = true) → t.acknowledge v k = t)
      ∧ (c.active = true → c.acked = false →
          entry ((t.acknowledge v k).cond k) = (true, true, c.occurrences, c.first, now) ∧ others (t.acknowledge v k))

/-- R158, R162, R168, R169: the pulse's end releases the line; a minimum timer's expiry stops it and makes the entry due
where its figure has moved past the deadband; a maximum timer's expiry makes the entry due; a routine cell's pack hold makes
it READY. What is due is then packed. Each moves nothing else, and nothing at all without its timer. R151, R165 to R169: what
a packing takes, one item after the other until nothing eligible waits: the head of the urgent due list into the urgent cell;
then the head notice, or else the oldest eligible due entry, into the open cell, and once that is full into the run-ahead
cell, which begins with it. -/
def Obligations.ReportTimersExpire : Prop :=
  (∀ s : State, s.Ready →
    let tele := s.jobs.tele
    let v := teleEnv s.env s.jobs
    let became : Tele → Host.Outcome State Fault Refusal := fun t =>
      .next ({ s with jobs := { s.jobs with tele := t } }).creditWatch
    (tele.pulse = none → exec .pulseTimerExpiry s = .next s.creditWatch)
      ∧ (tele.pulse ≠ none → exec .pulseTimerExpiry s = became { tele with alert := false, pulse := none })
      ∧ (∀ i, (tele.policy i).minTimer = none → exec (.minimumTimerExpiry i) s = .next s.creditWatch)
      ∧ (∀ i, (tele.policy i).minTimer ≠ none →
          let stopped := tele.updatePolicy i (fun p => { p with minTimer := none })
          let moved := match (tele.policy i).last, v.figure i with
            | none, _ => True
            | some last, none => last ≠ -8388608
            | some last, some f => last = -8388608 ∨ (v.policyAt i).deadband < (f - last).natAbs
          (moved → (tele.policy i).due = false → exec (.minimumTimerExpiry i) s
              = became (({ stopped with due := stopped.due ++ [i] }.updatePolicy i (fun p => { p with due := true })).pack v))
          ∧ ((¬ moved ∨ (tele.policy i).due = true) → exec (.minimumTimerExpiry i) s = became (stopped.pack v)))
      ∧ (∀ i, (tele.policy i).maxTimer = none → exec (.maximumTimerExpiry i) s = .next s.creditWatch)
      ∧ (∀ i, (tele.policy i).maxTimer ≠ none →
          let stopped := tele.updatePolicy i (fun p => { p with maxTimer := none })
          ((tele.policy i).due = false → exec (.maximumTimerExpiry i) s
              = became (({ stopped with due := stopped.due ++ [i] }.updatePolicy i (fun p => { p with due := true })).pack v))
          ∧ ((tele.policy i).due = true → exec (.maximumTimerExpiry i) s = became (stopped.pack v)))
      ∧ (tele.opened.hold = none → exec (.packHoldExpiry .opened) s = .next s.creditWatch)
      ∧ (tele.opened.hold ≠ none → exec (.packHoldExpiry .opened) s
          = became { tele with opened := { tele.opened with ready := true, hold := none } })
      ∧ (∀ c, tele.ahead = some c → c.hold ≠ none → exec (.packHoldExpiry .runAhead) s
          = became { tele with ahead := some { c with ready := true, hold := none } })
      ∧ ((tele.ahead = none ∨ ∃ c, tele.ahead = some c ∧ c.hold = none) →
          exec (.packHoldExpiry .runAhead) s = .next s.creditWatch))
    ∧ ∀ (v : TeleEnv) (t : Tele),
      let kindItem := fun k => ReportItem.condition k
        ((if (t.cond k).active then 1 else 0) + (if (t.cond k).acked then 2 else 0)) (t.cond k).occurrences
      let kindTold := fun k (x : Tele) => x.updateCond k (fun c => { c with pending := false, queued := false })
      let urgentTakes := fun k => t.urgent.items.length < 3 ∧ t.urgent.hasKind k = false
      let urgentIdle := ∀ k rest, t.urgentDue = k :: rest → ¬ urgentTakes k
      let cell := if t.opened.items.length < 3 then t.opened else t.ahead.getD .empty
      let put := fun (x : ReportItem) (u : Tele) =>
        let items := cell.items ++ [x]
        let grown : ReportCell :=
          if 3 ≤ items.length then { items := items, ready := true, hold := none }
          else if cell.items ≠ [] then { cell with items := items }
          else if v.packHold = 0 then { items := items, ready := true, hold := none }
          else { items := items, ready := false, hold := some (v.now + v.packHold) }
        if t.opened.items.length < 3 then { u with opened := grown } else { u with ahead := some grown }
      let noticeTaken := fun (n : Notice) => cell.items.length < 3 ∧ ∀ k, n = .condition k → cell.hasKind k = false
      let entryTaken := fun i => cell.items.length < 3 ∧ cell.hasPolicy i = false
      let noNotice := ∀ n rest, t.notices = n :: rest → ¬ noticeTaken n
      (∀ k rest, t.urgentDue = k :: rest → urgentTakes k →
          t.pack v = (kindTold k { t with
            urgentDue := rest
            urgent := { t.urgent with items := t.urgent.items ++ [kindItem k], ready := true } }).pack v)
        ∧ (urgentIdle → ∀ n rest, t.notices = n :: rest → noticeTaken n →
          t.pack v = (match n with
            | .refusal a b c => put (.refusal a b c) { t with notices := rest }
            | .cancelled a b c => put (.cancelled a b c) { t with notices := rest }
            | .holdEnded a b => put (.holdEnded a b) { t with notices := rest }
            | .condition k => put (kindItem k) (kindTold k { t with notices := rest })).pack v)
        ∧ (urgentIdle → noNotice → ∀ before i after, t.due = before ++ i :: after → entryTaken i →
          (∀ k ∈ before, ¬ entryTaken k) →
          let figure := (v.figure i).getD (-8388608)
          let timer := fun interval => if interval = 0 then none else some (v.now + interval)
          t.pack v = (put (.policy i figure) ({ t with due := before ++ after }.updatePolicy i (fun p =>
            { p with last := some figure, lastTime := some v.tow, due := false,
                     minTimer := timer (v.policyAt i).minInterval,
                     maxTimer := timer (v.policyAt i).maxInterval }))).pack v)
        ∧ (urgentIdle → noNotice → (∀ i ∈ t.due, ¬ entryTaken i) → t.pack v = t)

/-! ## The Management unit (spec/11) -/

/-- R173, R174: a taken request that fails a check is answered with the check's result and changes nothing, whatever the
kind: the first check that fails in the order of R173's table, and check by check an unknown request kind, a request kept to
the local source, an unknown table or record, an entry, group or index that does not exist, a STORE in flight, a protected
group or table, a RECALL under the lock, and written values that fail. What the arrival itself moves are counters, the bad
run, LOOP_NOISE and a silent head's record alone. R172: a request that has no source or no header slot is discarded and
counted, without an answer. -/
def Obligations.FailedRequestChangesNothing : Prop :=
  (∀ (p : Port) (bs : List Byte) (r : Request) (s : State), s.Ready → s.Requested p bs r →
    let s1 := s.received p bs
    let busy := s.jobs.store.storing ≠ none ∨ s.jobs.store.waiting = true
    let line := r.source = .line
    let locked := s.env.set.lock = true
    let answered : Instr → Result → Prop := fun c res => exec c s = .next (s1.answer r res []).creditWatch
    let fails : Result → Prop := fun res => ∀ c, arrivalOf c = some (p, bs) → answered c res
    let listed : Table → Prop := fun t => tableOf r.id = some t ∧ entryExists t r.index r.group
    (s1.env.set = s.env.set ∧ s1.env.clock = s.env.clock ∧ s1.env.now = s.env.now ∧ s1.loop.lQueue = s.loop.lQueue
        ∧ s1.loop.fQueue = s.loop.fQueue
        ∧ ({ s1.jobs with tele := s.jobs.tele, counters := s.jobs.counters } : Jobs) = s.jobs)
      ∧ (∀ res, firstFailure s1.env s1.jobs r = some res → fails res)
      ∧ ((r.kind = 0 ∨ 11 < r.kind) → answered (.badRequestKind p bs) .badValue)
      ∧ (line → (r.kind = 9 ∨ r.kind = 10 ∨ r.kind = 11) → fails .localOnly)
      ∧ ((r.id = 0 ∨ 10 < r.id) → (r.kind = 1 ∨ r.kind = 2) → fails .badTable)
      ∧ ((r.id = 0 ∨ 8 < r.id) → r.kind = 3 → fails .badTable)
      ∧ ((r.kind = 1 ∨ r.kind = 2) → ∀ t, tableOf r.id = some t → ¬ entryExists t r.index r.group → fails .badIndex)
      ∧ (r.kind = 3 → 1 ≤ r.id → r.id ≤ 8 → ¬ recordExists r.id r.index r.group → fails .badIndex)
      ∧ (21 < r.index → r.kind = 4 → fails .badIndex)
      ∧ (11 < r.index → r.kind = 5 → fails .badIndex)
      ∧ (busy → ((r.kind = 2 ∧ ∃ t, listed t) ∨ r.kind = 6 ∨ r.kind = 7 ∨ r.kind = 8
          ∨ (r.source = .local ∧ (r.kind = 9 ∨ r.kind = 10))) → fails .busy)
      ∧ (¬ busy → r.kind = 2 → ∀ t, listed t → writeBarred t r.group line locked → fails .isProtected)
      ∧ (¬ busy → r.kind = 7 → line → locked → fails .isProtected)
      ∧ (¬ busy → r.kind = 2 → ∀ t, listed t → ¬ writeBarred t r.group line locked →
          (r.data.length < 2 ∨ writeTable s.env.set t r.index r.group r.bytes = none) → fails .badValue))
    ∧ ∀ (c : Instr) (p : Port) (bs : List Byte) (s : State), arrivalOf c = some (p, bs) → s.Ready → goodCell bs = true →
      cellKind bs = kindMgmtReq → cellDest bs = s.env.set.general.ownAddress → requestOf s.env.set p bs = none →
      let s1 := s.received p bs
      exec c s = .next ({ s1 with jobs := { s1.jobs with counters :=
        { s1.jobs.counters with discarded12 := s1.jobs.counters.discarded12 + 1#32 } } }).creditWatch

/-- R173, R175: a READ_ENTRY and a READ_RECORD are answered with the 8 bytes of the group as it stands, and change nothing.
The first group of the GENERAL table, of the counters and of the Power allotment's summary are given byte for byte. -/
def Obligations.ReadsAnswerGroup : Prop :=
  (∀ (p : Port) (bs : List Byte) (r : Request) (s : State), s.Ready → s.Requested p bs r →
    let s1 := s.received p bs
    (∀ table d, r.kind = 1 → tableOf r.id = some table → entryGroup s1.env s1.jobs table r.index r.group = some d →
        exec (.readEntry p bs) s = .next (s1.answer r .done d).creditWatch ∧ d.length = 8)
      ∧ ∀ d, r.kind = 3 → 1 ≤ r.id → r.id ≤ 8 → recordGroup s1.env s1.jobs r.id r.index r.group = some d →
        exec (.readRecord p bs) s = .next (s1.answer r .done d).creditWatch ∧ d.length = 8)
    ∧ ∀ (e : Env) (j : Jobs),
      let g := e.set.general
      let two := fun n : Nat => [byteOf (n / 256), byteOf n]
      let four := fun n : Nat => [byteOf (n / 16777216), byteOf (n / 65536), byteOf (n / 256), byteOf n]
      entryGroup e j .general 0 0 = some ([byteOf g.ownAddress, byteOf g.packHold, byteOf g.ackTimeout,
          byteOf g.clockStaleHours] ++ two g.creditWait ++ two g.valveTravel)
        ∧ recordGroup e j 8 0 0 = some (four j.counters.received1F.toNat ++ four j.counters.received2L.toNat)
        ∧ recordGroup e j 4 6 0 = some (two j.power.cap ++ two j.power.total ++ [0#8, 0#8, 0#8, 0#8])

/-- R176, R175: in the tables whose groups fill their 8 bytes, a group that a write takes is read back byte for byte. -/
def Obligations.ReadReturnsWhatWasWritten : Prop :=
  ∀ (e : Env) (j : Jobs) (table : Table) (i group : Nat) (d : List Byte) (new : Settings), d.length = 8 → e.set.Shaped →
    ((table = .general ∧ i = 0 ∧ (group = 0 ∨ group = 1 ∨ group = 3))
      ∨ (table = .heads ∧ 1 ≤ i ∧ i ≤ 47 ∧ group ≤ 1) ∨ (table = .actuators ∧ i < 12 ∧ group = 0)
      ∨ (table = .tariff ∧ i < 16 ∧ group = 0) ∨ (table = .guard ∧ i = 0 ∧ group = 0)
      ∨ (table = .zones ∧ i < 5 ∧ group = 0)) →
    writeTable e.set table i group d = some new → entryGroup { e with set := new } j table i group = some d

/-- R176, R173, R174: a WRITE_ENTRY that passes every check brings its settings into force and is answered DONE from the own
address then in force; the time of week and the clock state stay. From the local source SET_LOCK sets and CLEAR_LOCK clears
the lock, and nothing else moves. -/
def Obligations.WriteTakesSettings : Prop :=
  ∀ (p : Port) (bs : List Byte) (r : Request) (s : State), s.Requested p bs r →
    let s1 := s.received p bs
    (∀ table new, s.Ready → r.kind = 2 → firstFailure s1.env s1.jobs r = none → tableOf r.id = some table →
        r.write s.env.set = some new → ∃ t, exec (.writeEntry p bs) s = .next t ∧ t.env.set = new
          ∧ t.env.clock.tow = s.env.clock.tow ∧ t.env.clock.state = s.env.clock.state ∧ t.env.now = s.env.now
          ∧ t.loop.queueOf p = s.loop.offered p (r.answerCell new.general.ownAddress .done []))
      ∧ (s.Ready → r.source = .local → s.jobs.store.storing = none → s.jobs.store.waiting = false →
          let locked : Bool → Host.Outcome State Fault Refusal := fun b =>
            .next (({ s1 with env := { s1.env with set := { s.env.set with lock := b } } }).answer r .done []).creditWatch
          (r.kind = 9 → exec (.setLock p bs) s = locked true) ∧ (r.kind = 10 → exec (.clearLock p bs) s = locked false))

/-- R154, R64, R173: an ACK_CONDITION acknowledges the kind its index names, and a CLEAR_FAULT sets the fault of an in-use
actuator to NONE, with what that causes; each is answered DONE, and a CLEAR_FAULT that finds no fault does nothing else. -/
def Obligations.AckAndClearFaultAct : Prop :=
  ∀ (p : Port) (bs : List Byte) (r : Request) (s : State), s.Ready → s.Requested p bs r →
    let s1 := s.received p bs
    (∀ k, r.kind = 4 → condKinds[r.index]? = some k → exec (.ackCondition p bs) s = .next
        (({ s1 with jobs := { s1.jobs with
            tele := s1.jobs.tele.acknowledge (teleEnv s1.env s1.jobs) k } }).answer r .done []).creditWatch)
      ∧ (r.kind = 5 → r.index < 12 → (s.jobs.act r.index).fault = .none →
          exec (.clearFault p bs) s = .next (s1.answer r .done []).creditWatch)
      ∧ (r.kind = 5 → r.index < 12 → s.Shaped → s.env.set.actInUse r.index = true →
          ∃ t, exec (.clearFault p bs) s = .next t ∧ (t.jobs.act r.index).fault = .none
            ∧ (t.jobs.act r.index).reported = (s.jobs.act r.index).reported
            ∧ (t.jobs.act r.index).settled = (s.jobs.act r.index).settled ∧ s.jobs.OthersKeep r.index t.jobs
            ∧ t.jobs.flight = s.jobs.flight ∧ t.env.set = s.env.set
            ∧ t.loop.queueOf p = s.loop.offered p (r.answerCell s.env.set.general.ownAddress .done []))

/-- R113, R177: a STORE begins at once, or waits for the latch word write being made; a store's end leaves the copied
settings as the complete image, answers the STORE and clears SETTINGS_LOST, and the word write asked for meanwhile begins; a
word write's end leaves the word, and then begins a further write asked for, or the STORE that waits, which lets one further
write go first. The two deferred rows begin what waits while the settings store is idle; that they do nothing where the
store is busy or nothing waits is the model's choice (log 4). -/
def Obligations.StoreCopiesSettings : Prop :=
  (∀ (p : Port) (bs : List Byte) (r : Request) (s : State), s.Ready → s.Requested p bs r → r.kind = 6 →
    s.jobs.store.storing = none → s.jobs.store.waiting = false →
    let s1 := s.received p bs
    let asked : Store := { s.jobs.store with
      asker := some ⟨p, r.address, r.header.b0.toNat, r.header.b1.toNat, r.header.field3⟩ }
    let became : Store → Host.Outcome State Fault Refusal := fun x =>
      .next ({ s1 with jobs := { s1.jobs with store := x } }).creditWatch
    (s.jobs.store.writing = none → exec (.store p bs) s = became
        { asked with storing := some s.env.set, complete := false, waiting := false, further := false })
      ∧ (s.jobs.store.writing ≠ none → exec (.store p bs) s = became { asked with waiting := true }))
    ∧ ∀ s : State, s.Ready →
      let x := s.jobs.store
      let became : Store → Host.Outcome State Fault Refusal := fun y =>
        .next ({ s with jobs := { s.jobs with store := y } }).creditWatch
      let idle := x.storing = none ∧ x.writing = none
      let writes : Store → Store := fun y =>
        { y with writing := some s.jobs.guard.latch, writeAsked := false, further := y.waiting }
      let stores : Store → Store := fun y =>
        { y with storing := some s.env.set, complete := false, waiting := false, further := false }
      let writeNext := x.writeAsked = true ∧ ¬ (x.waiting = true ∧ x.further = true)
      (x.storing = none → exec .storeCompletion s = .next s.creditWatch)
        ∧ (∀ image, x.storing = some image → x.waiting = false → (x.writeAsked = true → x.writing = none) →
            let ended : Store := { x with image := some image, complete := true, storing := none, asker := none }
            ∃ t, exec .storeCompletion s = .next t
              ∧ t.jobs.store = (if x.writeAsked = true then writes ended else ended)
              ∧ t.jobs.active .settingsLost = false ∧ t.env = s.env
              ∧ t.jobs.counters.stores14 = s.jobs.counters.stores14 + 1#32
              ∧ ∀ a, x.asker = some a → t.loop.queueOf a.port = s.loop.offered a.port
                  (answerCell s.env.set.general.ownAddress a.address a.b0 a.b1 a.tag .done []))
        ∧ (x.writing = none → exec .latchWordWriteCompletion s = .next s.creditWatch)
        ∧ (∀ w, x.writing = some w → x.storing = none →
            let ended : Store := { x with word := w, writing := none }
            (x.writeAsked = false → x.waiting = false → exec .latchWordWriteCompletion s = became ended)
            ∧ (writeNext → exec .latchWordWriteCompletion s = became (writes ended))
            ∧ (¬ writeNext → x.waiting = true → exec .latchWordWriteCompletion s = became (stores ended)))
        ∧ (x.writeAsked = false → exec .latchWordWriteDeferred s = .next s.creditWatch)
        ∧ (x.waiting = false → exec .deferredStoreBegin s = .next s.creditWatch)
        ∧ (idle → writeNext → exec .latchWordWriteDeferred s = became (writes x))
        ∧ (idle → x.writeAsked = true → ¬ writeNext → exec .latchWordWriteDeferred s = became (stores x))
        ∧ (idle → x.waiting = true → writeNext → exec .deferredStoreBegin s = became (writes x))
        ∧ (idle → x.waiting = true → ¬ writeNext → exec .deferredStoreBegin s = became (stores x))
        ∧ (¬ idle → exec .latchWordWriteDeferred s = .next s.creditWatch
            ∧ exec .deferredStoreBegin s = .next s.creditWatch)

/-- R177 to R179: a loss of power leaves the stored items alone; power-on loads a complete image or else the factory defaults
with SETTINGS_LOST, the latch word into the latch, set or clear, and every counter but the refusals' 0. RESTART and RECALL
keep the time of week, the clock state and the run minutes of the pumps in use, and neither is answered; a RECALL brings the
complete image into force, and without one is answered NOT_SAFE. The model's choices: a part without power takes no command
but the supply's (log 19), and the report of a restarted actuator has duty and units 0 (log 16). -/
def Obligations.ResetsKeepWhatTheyShould : Prop :=
  (∀ s : State, ∃ t, exec .powerLoss s = .next t ∧ t.powered = false ∧ t.pending = s.pending
      ∧ t.loop = Loop.powerOn ∧ t.jobs.store.image = s.jobs.store.image ∧ t.jobs.store.complete = s.jobs.store.complete
      ∧ t.jobs.store.word = s.jobs.store.word ∧ t.jobs.store.storing = none ∧ t.jobs.store.writing = none)
    ∧ (∀ (c : Instr) (s : State), s.powered = false → c ≠ .powerOn → c ≠ .powerLoss → exec c s = .next s)
    ∧ (∀ s : State, ∃ t, exec .powerOn s = .next t ∧ t.powered = true ∧ t.pending = s.pending
      ∧ (∀ image, s.jobs.store.complete = true → s.jobs.store.image = some image → t.env.set = image)
      ∧ (s.jobs.store.complete = false ∨ s.jobs.store.image = none →
          t.env.set = .factory ∧ t.jobs.active .settingsLost = true)
      ∧ t.jobs.guard.latch = s.jobs.store.word ∧ t.jobs.store.word = s.jobs.store.word
      ∧ t.env.clock.tow = ⟨0, 0⟩ ∧ t.env.clock.state = .unset ∧ t.jobs.active .clockUnset = true
      ∧ t.loop = { Loop.powerOn with creditWait := t.loop.creditWait }
      ∧ ({ t.jobs.counters with refusals11 := 0#32 } : Counters) = Counters.zero ∧ t.jobs.flight = []
      ∧ ∀ i, (t.jobs.act i).view = ActRuntime.powerOn.view)
    ∧ ∀ (p : Port) (bs : List Byte) (r : Request) (s : State), s.powered = true → s.Requested p bs r →
      s.jobs.store.storing = none → s.jobs.store.waiting = false →
      let restarted := fun (set : Settings) (t : State) => t.env.set = set ∧ t.env.clock.tow = s.env.clock.tow
        ∧ t.env.clock.state = s.env.clock.state
        ∧ t.loop = { Loop.powerOn with lTx := s.loop.lTx, fTx := s.loop.fTx, creditWait := t.loop.creditWait }
        ∧ t.jobs.flight = [] ∧ (s.jobs.guard.latch = true → t.jobs.guard.latch = true)
        ∧ (∀ i < 12, (t.jobs.act i).runMinutes = (if set.actInUse i = true ∧ (set.act i).kind = .pump
            then (s.jobs.act i).runMinutes else 0#32))
        ∧ ∀ i, (t.jobs.act i).reported = ⟨.unknown, 0, 0⟩
          ∧ (t.jobs.act i).fault = .none ∧ (t.jobs.act i).settled = .unknown
      (r.kind = 8 → ∃ t, exec (.restart p bs) s = .next t ∧ restarted s.env.set t)
        ∧ (r.kind = 7 → (r.source = .local ∨ s.env.set.lock = false) →
            (∀ image, s.jobs.store.complete = true → s.jobs.store.image = some image →
              ∃ t, exec (.recall p bs) s = .next t ∧ restarted image t)
            ∧ (s.Ready → (s.jobs.store.complete = false ∨ s.jobs.store.image = none) →
              exec (.recall p bs) s = .next ((s.received p bs).answer r .notSafe []).creditWatch))
end

