-- ==== Sys2Proof/Laws/State.lean ====
section
/-!
SUPPORT. One lemma per field per update of the state: what each update sets, and that it leaves the other fields alone.
-/

namespace Sys2Proof.Machine

/-! ## Jobs.updateAct -/

@[simp] theorem Jobs.updateAct_level (i : Nat) (f : ActRuntime → ActRuntime) (j : Jobs) : (j.updateAct i f).level = j.level := rfl
@[simp] theorem Jobs.updateAct_suspects (i : Nat) (f : ActRuntime → ActRuntime) (j : Jobs) : (j.updateAct i f).suspects = j.suspects := rfl
@[simp] theorem Jobs.updateAct_acts (i : Nat) (f : ActRuntime → ActRuntime) (j : Jobs) : (j.updateAct i f).acts = updateAt f i j.acts := rfl
@[simp] theorem Jobs.updateAct_queue (i : Nat) (f : ActRuntime → ActRuntime) (j : Jobs) : (j.updateAct i f).queue = j.queue := rfl
@[simp] theorem Jobs.updateAct_flight (i : Nat) (f : ActRuntime → ActRuntime) (j : Jobs) : (j.updateAct i f).flight = j.flight := rfl
@[simp] theorem Jobs.updateAct_fill (i : Nat) (f : ActRuntime → ActRuntime) (j : Jobs) : (j.updateAct i f).fill = j.fill := rfl
@[simp] theorem Jobs.updateAct_runs (i : Nat) (f : ActRuntime → ActRuntime) (j : Jobs) : (j.updateAct i f).runs = j.runs := rfl
@[simp] theorem Jobs.updateAct_guard (i : Nat) (f : ActRuntime → ActRuntime) (j : Jobs) : (j.updateAct i f).guard = j.guard := rfl
@[simp] theorem Jobs.updateAct_frost (i : Nat) (f : ActRuntime → ActRuntime) (j : Jobs) : (j.updateAct i f).frost = j.frost := rfl
@[simp] theorem Jobs.updateAct_power (i : Nat) (f : ActRuntime → ActRuntime) (j : Jobs) : (j.updateAct i f).power = j.power := rfl
@[simp] theorem Jobs.updateAct_tele (i : Nat) (f : ActRuntime → ActRuntime) (j : Jobs) : (j.updateAct i f).tele = j.tele := rfl
@[simp] theorem Jobs.updateAct_store (i : Nat) (f : ActRuntime → ActRuntime) (j : Jobs) : (j.updateAct i f).store = j.store := rfl
@[simp] theorem Jobs.updateAct_counters (i : Nat) (f : ActRuntime → ActRuntime) (j : Jobs) : (j.updateAct i f).counters = j.counters := rfl
@[simp] theorem Jobs.updateAct_work (i : Nat) (f : ActRuntime → ActRuntime) (j : Jobs) : (j.updateAct i f).work = j.work := rfl
@[simp] theorem Jobs.updateAct_choices (i : Nat) (f : ActRuntime → ActRuntime) (j : Jobs) : (j.updateAct i f).choices = j.choices := rfl

/-! ## Jobs.updateZone -/

@[simp] theorem Jobs.updateZone_level (z : Nat) (f : Zone → Zone) (j : Jobs) : (j.updateZone z f).level = j.level := rfl
@[simp] theorem Jobs.updateZone_suspects (z : Nat) (f : Zone → Zone) (j : Jobs) : (j.updateZone z f).suspects = j.suspects := rfl
@[simp] theorem Jobs.updateZone_acts (z : Nat) (f : Zone → Zone) (j : Jobs) : (j.updateZone z f).acts = j.acts := rfl
@[simp] theorem Jobs.updateZone_queue (z : Nat) (f : Zone → Zone) (j : Jobs) : (j.updateZone z f).queue = j.queue := rfl
@[simp] theorem Jobs.updateZone_flight (z : Nat) (f : Zone → Zone) (j : Jobs) : (j.updateZone z f).flight = j.flight := rfl
@[simp] theorem Jobs.updateZone_fill (z : Nat) (f : Zone → Zone) (j : Jobs) : (j.updateZone z f).fill = j.fill := rfl
@[simp] theorem Jobs.updateZone_runs (z : Nat) (f : Zone → Zone) (j : Jobs) : (j.updateZone z f).runs = j.runs := rfl
@[simp] theorem Jobs.updateZone_guard (z : Nat) (f : Zone → Zone) (j : Jobs) : (j.updateZone z f).guard = j.guard := rfl
@[simp] theorem Jobs.updateZone_frost (z : Nat) (f : Zone → Zone) (j : Jobs) : (j.updateZone z f).frost = { j.frost with zones := updateAt f z j.frost.zones } := rfl
@[simp] theorem Jobs.updateZone_power (z : Nat) (f : Zone → Zone) (j : Jobs) : (j.updateZone z f).power = j.power := rfl
@[simp] theorem Jobs.updateZone_tele (z : Nat) (f : Zone → Zone) (j : Jobs) : (j.updateZone z f).tele = j.tele := rfl
@[simp] theorem Jobs.updateZone_store (z : Nat) (f : Zone → Zone) (j : Jobs) : (j.updateZone z f).store = j.store := rfl
@[simp] theorem Jobs.updateZone_counters (z : Nat) (f : Zone → Zone) (j : Jobs) : (j.updateZone z f).counters = j.counters := rfl
@[simp] theorem Jobs.updateZone_work (z : Nat) (f : Zone → Zone) (j : Jobs) : (j.updateZone z f).work = j.work := rfl
@[simp] theorem Jobs.updateZone_choices (z : Nat) (f : Zone → Zone) (j : Jobs) : (j.updateZone z f).choices = j.choices := rfl

/-! ## Jobs.updateClaim -/

@[simp] theorem Jobs.updateClaim_level (c : Nat) (f : Claim → Claim) (j : Jobs) : (j.updateClaim c f).level = j.level := rfl
@[simp] theorem Jobs.updateClaim_suspects (c : Nat) (f : Claim → Claim) (j : Jobs) : (j.updateClaim c f).suspects = j.suspects := rfl
@[simp] theorem Jobs.updateClaim_acts (c : Nat) (f : Claim → Claim) (j : Jobs) : (j.updateClaim c f).acts = j.acts := rfl
@[simp] theorem Jobs.updateClaim_queue (c : Nat) (f : Claim → Claim) (j : Jobs) : (j.updateClaim c f).queue = j.queue := rfl
@[simp] theorem Jobs.updateClaim_flight (c : Nat) (f : Claim → Claim) (j : Jobs) : (j.updateClaim c f).flight = j.flight := rfl
@[simp] theorem Jobs.updateClaim_fill (c : Nat) (f : Claim → Claim) (j : Jobs) : (j.updateClaim c f).fill = j.fill := rfl
@[simp] theorem Jobs.updateClaim_runs (c : Nat) (f : Claim → Claim) (j : Jobs) : (j.updateClaim c f).runs = j.runs := rfl
@[simp] theorem Jobs.updateClaim_guard (c : Nat) (f : Claim → Claim) (j : Jobs) : (j.updateClaim c f).guard = j.guard := rfl
@[simp] theorem Jobs.updateClaim_frost (c : Nat) (f : Claim → Claim) (j : Jobs) : (j.updateClaim c f).frost = j.frost := rfl
@[simp] theorem Jobs.updateClaim_power (c : Nat) (f : Claim → Claim) (j : Jobs) : (j.updateClaim c f).power = { j.power with claims := updateAt f c j.power.claims } := rfl
@[simp] theorem Jobs.updateClaim_tele (c : Nat) (f : Claim → Claim) (j : Jobs) : (j.updateClaim c f).tele = j.tele := rfl
@[simp] theorem Jobs.updateClaim_store (c : Nat) (f : Claim → Claim) (j : Jobs) : (j.updateClaim c f).store = j.store := rfl
@[simp] theorem Jobs.updateClaim_counters (c : Nat) (f : Claim → Claim) (j : Jobs) : (j.updateClaim c f).counters = j.counters := rfl
@[simp] theorem Jobs.updateClaim_work (c : Nat) (f : Claim → Claim) (j : Jobs) : (j.updateClaim c f).work = j.work := rfl
@[simp] theorem Jobs.updateClaim_choices (c : Nat) (f : Claim → Claim) (j : Jobs) : (j.updateClaim c f).choices = j.choices := rfl

/-! ## Jobs.plan -/

@[simp] theorem Jobs.plan_level (f : FillPlan → FillPlan) (j : Jobs) : (j.plan f).level = j.level := rfl
@[simp] theorem Jobs.plan_suspects (f : FillPlan → FillPlan) (j : Jobs) : (j.plan f).suspects = j.suspects := rfl
@[simp] theorem Jobs.plan_acts (f : FillPlan → FillPlan) (j : Jobs) : (j.plan f).acts = j.acts := rfl
@[simp] theorem Jobs.plan_queue (f : FillPlan → FillPlan) (j : Jobs) : (j.plan f).queue = j.queue := rfl
@[simp] theorem Jobs.plan_flight (f : FillPlan → FillPlan) (j : Jobs) : (j.plan f).flight = j.flight := rfl
@[simp] theorem Jobs.plan_fill (f : FillPlan → FillPlan) (j : Jobs) : (j.plan f).fill = f j.fill := rfl
@[simp] theorem Jobs.plan_runs (f : FillPlan → FillPlan) (j : Jobs) : (j.plan f).runs = j.runs := rfl
@[simp] theorem Jobs.plan_guard (f : FillPlan → FillPlan) (j : Jobs) : (j.plan f).guard = j.guard := rfl
@[simp] theorem Jobs.plan_frost (f : FillPlan → FillPlan) (j : Jobs) : (j.plan f).frost = j.frost := rfl
@[simp] theorem Jobs.plan_power (f : FillPlan → FillPlan) (j : Jobs) : (j.plan f).power = j.power := rfl
@[simp] theorem Jobs.plan_tele (f : FillPlan → FillPlan) (j : Jobs) : (j.plan f).tele = j.tele := rfl
@[simp] theorem Jobs.plan_store (f : FillPlan → FillPlan) (j : Jobs) : (j.plan f).store = j.store := rfl
@[simp] theorem Jobs.plan_counters (f : FillPlan → FillPlan) (j : Jobs) : (j.plan f).counters = j.counters := rfl
@[simp] theorem Jobs.plan_work (f : FillPlan → FillPlan) (j : Jobs) : (j.plan f).work = j.work := rfl
@[simp] theorem Jobs.plan_choices (f : FillPlan → FillPlan) (j : Jobs) : (j.plan f).choices = j.choices := rfl

/-! ## Jobs.guarding -/

@[simp] theorem Jobs.guarding_level (f : GuardRecord → GuardRecord) (j : Jobs) : (j.guarding f).level = j.level := rfl
@[simp] theorem Jobs.guarding_suspects (f : GuardRecord → GuardRecord) (j : Jobs) : (j.guarding f).suspects = j.suspects := rfl
@[simp] theorem Jobs.guarding_acts (f : GuardRecord → GuardRecord) (j : Jobs) : (j.guarding f).acts = j.acts := rfl
@[simp] theorem Jobs.guarding_queue (f : GuardRecord → GuardRecord) (j : Jobs) : (j.guarding f).queue = j.queue := rfl
@[simp] theorem Jobs.guarding_flight (f : GuardRecord → GuardRecord) (j : Jobs) : (j.guarding f).flight = j.flight := rfl
@[simp] theorem Jobs.guarding_fill (f : GuardRecord → GuardRecord) (j : Jobs) : (j.guarding f).fill = j.fill := rfl
@[simp] theorem Jobs.guarding_runs (f : GuardRecord → GuardRecord) (j : Jobs) : (j.guarding f).runs = j.runs := rfl
@[simp] theorem Jobs.guarding_guard (f : GuardRecord → GuardRecord) (j : Jobs) : (j.guarding f).guard = f j.guard := rfl
@[simp] theorem Jobs.guarding_frost (f : GuardRecord → GuardRecord) (j : Jobs) : (j.guarding f).frost = j.frost := rfl
@[simp] theorem Jobs.guarding_power (f : GuardRecord → GuardRecord) (j : Jobs) : (j.guarding f).power = j.power := rfl
@[simp] theorem Jobs.guarding_tele (f : GuardRecord → GuardRecord) (j : Jobs) : (j.guarding f).tele = j.tele := rfl
@[simp] theorem Jobs.guarding_store (f : GuardRecord → GuardRecord) (j : Jobs) : (j.guarding f).store = j.store := rfl
@[simp] theorem Jobs.guarding_counters (f : GuardRecord → GuardRecord) (j : Jobs) : (j.guarding f).counters = j.counters := rfl
@[simp] theorem Jobs.guarding_work (f : GuardRecord → GuardRecord) (j : Jobs) : (j.guarding f).work = j.work := rfl
@[simp] theorem Jobs.guarding_choices (f : GuardRecord → GuardRecord) (j : Jobs) : (j.guarding f).choices = j.choices := rfl

/-! ## Jobs.frosted -/

@[simp] theorem Jobs.frosted_level (f : Frost → Frost) (j : Jobs) : (j.frosted f).level = j.level := rfl
@[simp] theorem Jobs.frosted_suspects (f : Frost → Frost) (j : Jobs) : (j.frosted f).suspects = j.suspects := rfl
@[simp] theorem Jobs.frosted_acts (f : Frost → Frost) (j : Jobs) : (j.frosted f).acts = j.acts := rfl
@[simp] theorem Jobs.frosted_queue (f : Frost → Frost) (j : Jobs) : (j.frosted f).queue = j.queue := rfl
@[simp] theorem Jobs.frosted_flight (f : Frost → Frost) (j : Jobs) : (j.frosted f).flight = j.flight := rfl
@[simp] theorem Jobs.frosted_fill (f : Frost → Frost) (j : Jobs) : (j.frosted f).fill = j.fill := rfl
@[simp] theorem Jobs.frosted_runs (f : Frost → Frost) (j : Jobs) : (j.frosted f).runs = j.runs := rfl
@[simp] theorem Jobs.frosted_guard (f : Frost → Frost) (j : Jobs) : (j.frosted f).guard = j.guard := rfl
@[simp] theorem Jobs.frosted_frost (f : Frost → Frost) (j : Jobs) : (j.frosted f).frost = f j.frost := rfl
@[simp] theorem Jobs.frosted_power (f : Frost → Frost) (j : Jobs) : (j.frosted f).power = j.power := rfl
@[simp] theorem Jobs.frosted_tele (f : Frost → Frost) (j : Jobs) : (j.frosted f).tele = j.tele := rfl
@[simp] theorem Jobs.frosted_store (f : Frost → Frost) (j : Jobs) : (j.frosted f).store = j.store := rfl
@[simp] theorem Jobs.frosted_counters (f : Frost → Frost) (j : Jobs) : (j.frosted f).counters = j.counters := rfl
@[simp] theorem Jobs.frosted_work (f : Frost → Frost) (j : Jobs) : (j.frosted f).work = j.work := rfl
@[simp] theorem Jobs.frosted_choices (f : Frost → Frost) (j : Jobs) : (j.frosted f).choices = j.choices := rfl

/-! ## Jobs.stored -/

@[simp] theorem Jobs.stored_level (f : Store → Store) (j : Jobs) : (j.stored f).level = j.level := rfl
@[simp] theorem Jobs.stored_suspects (f : Store → Store) (j : Jobs) : (j.stored f).suspects = j.suspects := rfl
@[simp] theorem Jobs.stored_acts (f : Store → Store) (j : Jobs) : (j.stored f).acts = j.acts := rfl
@[simp] theorem Jobs.stored_queue (f : Store → Store) (j : Jobs) : (j.stored f).queue = j.queue := rfl
@[simp] theorem Jobs.stored_flight (f : Store → Store) (j : Jobs) : (j.stored f).flight = j.flight := rfl
@[simp] theorem Jobs.stored_fill (f : Store → Store) (j : Jobs) : (j.stored f).fill = j.fill := rfl
@[simp] theorem Jobs.stored_runs (f : Store → Store) (j : Jobs) : (j.stored f).runs = j.runs := rfl
@[simp] theorem Jobs.stored_guard (f : Store → Store) (j : Jobs) : (j.stored f).guard = j.guard := rfl
@[simp] theorem Jobs.stored_frost (f : Store → Store) (j : Jobs) : (j.stored f).frost = j.frost := rfl
@[simp] theorem Jobs.stored_power (f : Store → Store) (j : Jobs) : (j.stored f).power = j.power := rfl
@[simp] theorem Jobs.stored_tele (f : Store → Store) (j : Jobs) : (j.stored f).tele = j.tele := rfl
@[simp] theorem Jobs.stored_store (f : Store → Store) (j : Jobs) : (j.stored f).store = f j.store := rfl
@[simp] theorem Jobs.stored_counters (f : Store → Store) (j : Jobs) : (j.stored f).counters = j.counters := rfl
@[simp] theorem Jobs.stored_work (f : Store → Store) (j : Jobs) : (j.stored f).work = j.work := rfl
@[simp] theorem Jobs.stored_choices (f : Store → Store) (j : Jobs) : (j.stored f).choices = j.choices := rfl

/-! ## Jobs.count -/

@[simp] theorem Jobs.count_level (f : Counters → Counters) (j : Jobs) : (j.count f).level = j.level := rfl
@[simp] theorem Jobs.count_suspects (f : Counters → Counters) (j : Jobs) : (j.count f).suspects = j.suspects := rfl
@[simp] theorem Jobs.count_acts (f : Counters → Counters) (j : Jobs) : (j.count f).acts = j.acts := rfl
@[simp] theorem Jobs.count_queue (f : Counters → Counters) (j : Jobs) : (j.count f).queue = j.queue := rfl
@[simp] theorem Jobs.count_flight (f : Counters → Counters) (j : Jobs) : (j.count f).flight = j.flight := rfl
@[simp] theorem Jobs.count_fill (f : Counters → Counters) (j : Jobs) : (j.count f).fill = j.fill := rfl
@[simp] theorem Jobs.count_runs (f : Counters → Counters) (j : Jobs) : (j.count f).runs = j.runs := rfl
@[simp] theorem Jobs.count_guard (f : Counters → Counters) (j : Jobs) : (j.count f).guard = j.guard := rfl
@[simp] theorem Jobs.count_frost (f : Counters → Counters) (j : Jobs) : (j.count f).frost = j.frost := rfl
@[simp] theorem Jobs.count_power (f : Counters → Counters) (j : Jobs) : (j.count f).power = j.power := rfl
@[simp] theorem Jobs.count_tele (f : Counters → Counters) (j : Jobs) : (j.count f).tele = j.tele := rfl
@[simp] theorem Jobs.count_store (f : Counters → Counters) (j : Jobs) : (j.count f).store = j.store := rfl
@[simp] theorem Jobs.count_counters (f : Counters → Counters) (j : Jobs) : (j.count f).counters = f j.counters := rfl
@[simp] theorem Jobs.count_work (f : Counters → Counters) (j : Jobs) : (j.count f).work = j.work := rfl
@[simp] theorem Jobs.count_choices (f : Counters → Counters) (j : Jobs) : (j.count f).choices = j.choices := rfl

/-! ## Jobs.post -/

@[simp] theorem Jobs.post_level (ev : Event) (j : Jobs) : (j.post ev).level = j.level := rfl
@[simp] theorem Jobs.post_suspects (ev : Event) (j : Jobs) : (j.post ev).suspects = j.suspects := rfl
@[simp] theorem Jobs.post_acts (ev : Event) (j : Jobs) : (j.post ev).acts = j.acts := rfl
@[simp] theorem Jobs.post_queue (ev : Event) (j : Jobs) : (j.post ev).queue = j.queue := rfl
@[simp] theorem Jobs.post_flight (ev : Event) (j : Jobs) : (j.post ev).flight = j.flight := rfl
@[simp] theorem Jobs.post_fill (ev : Event) (j : Jobs) : (j.post ev).fill = j.fill := rfl
@[simp] theorem Jobs.post_runs (ev : Event) (j : Jobs) : (j.post ev).runs = j.runs := rfl
@[simp] theorem Jobs.post_guard (ev : Event) (j : Jobs) : (j.post ev).guard = j.guard := rfl
@[simp] theorem Jobs.post_frost (ev : Event) (j : Jobs) : (j.post ev).frost = j.frost := rfl
@[simp] theorem Jobs.post_power (ev : Event) (j : Jobs) : (j.post ev).power = j.power := rfl
@[simp] theorem Jobs.post_tele (ev : Event) (j : Jobs) : (j.post ev).tele = j.tele := rfl
@[simp] theorem Jobs.post_store (ev : Event) (j : Jobs) : (j.post ev).store = j.store := rfl
@[simp] theorem Jobs.post_counters (ev : Event) (j : Jobs) : (j.post ev).counters = j.counters := rfl
@[simp] theorem Jobs.post_work (ev : Event) (j : Jobs) : (j.post ev).work = j.work ++ [ev] := rfl
@[simp] theorem Jobs.post_choices (ev : Event) (j : Jobs) : (j.post ev).choices = j.choices := rfl

-- A pass that begins at once (R141).
@[simp] theorem Jobs.startPass_level (j : Jobs) : j.startPass.level = j.level := rfl
@[simp] theorem Jobs.startPass_suspects (j : Jobs) : j.startPass.suspects = j.suspects := rfl
@[simp] theorem Jobs.startPass_acts (j : Jobs) : j.startPass.acts = j.acts := rfl
@[simp] theorem Jobs.startPass_queue (j : Jobs) : j.startPass.queue = j.queue := rfl
@[simp] theorem Jobs.startPass_flight (j : Jobs) : j.startPass.flight = j.flight := rfl
@[simp] theorem Jobs.startPass_fill (j : Jobs) : j.startPass.fill = j.fill := rfl
@[simp] theorem Jobs.startPass_runs (j : Jobs) : j.startPass.runs = j.runs := rfl
@[simp] theorem Jobs.startPass_guard (j : Jobs) : j.startPass.guard = j.guard := rfl
@[simp] theorem Jobs.startPass_frost (j : Jobs) : j.startPass.frost = j.frost := rfl
@[simp] theorem Jobs.startPass_power (j : Jobs) : j.startPass.power = j.power := rfl
@[simp] theorem Jobs.startPass_tele (j : Jobs) : j.startPass.tele = j.tele := rfl
@[simp] theorem Jobs.startPass_store (j : Jobs) : j.startPass.store = j.store := rfl
@[simp] theorem Jobs.startPass_counters (j : Jobs) : j.startPass.counters = j.counters := rfl
@[simp] theorem Jobs.startPass_work (j : Jobs) : j.startPass.work = .pass :: j.work := rfl
@[simp] theorem Jobs.startPass_choices (j : Jobs) : j.startPass.choices = j.choices := rfl

/-! ## Jobs.tele' -/

@[simp] theorem Jobs.tele'_level (f : TeleEnv → Tele → Tele) (e : Env) (j : Jobs) : (j.tele' f e).level = j.level := rfl
@[simp] theorem Jobs.tele'_suspects (f : TeleEnv → Tele → Tele) (e : Env) (j : Jobs) : (j.tele' f e).suspects = j.suspects := rfl
@[simp] theorem Jobs.tele'_acts (f : TeleEnv → Tele → Tele) (e : Env) (j : Jobs) : (j.tele' f e).acts = j.acts := rfl
@[simp] theorem Jobs.tele'_queue (f : TeleEnv → Tele → Tele) (e : Env) (j : Jobs) : (j.tele' f e).queue = j.queue := rfl
@[simp] theorem Jobs.tele'_flight (f : TeleEnv → Tele → Tele) (e : Env) (j : Jobs) : (j.tele' f e).flight = j.flight := rfl
@[simp] theorem Jobs.tele'_fill (f : TeleEnv → Tele → Tele) (e : Env) (j : Jobs) : (j.tele' f e).fill = j.fill := rfl
@[simp] theorem Jobs.tele'_runs (f : TeleEnv → Tele → Tele) (e : Env) (j : Jobs) : (j.tele' f e).runs = j.runs := rfl
@[simp] theorem Jobs.tele'_guard (f : TeleEnv → Tele → Tele) (e : Env) (j : Jobs) : (j.tele' f e).guard = j.guard := rfl
@[simp] theorem Jobs.tele'_frost (f : TeleEnv → Tele → Tele) (e : Env) (j : Jobs) : (j.tele' f e).frost = j.frost := rfl
@[simp] theorem Jobs.tele'_power (f : TeleEnv → Tele → Tele) (e : Env) (j : Jobs) : (j.tele' f e).power = j.power := rfl
@[simp] theorem Jobs.tele'_tele (f : TeleEnv → Tele → Tele) (e : Env) (j : Jobs) : (j.tele' f e).tele = f (teleEnv e j) j.tele := rfl
@[simp] theorem Jobs.tele'_store (f : TeleEnv → Tele → Tele) (e : Env) (j : Jobs) : (j.tele' f e).store = j.store := rfl
@[simp] theorem Jobs.tele'_counters (f : TeleEnv → Tele → Tele) (e : Env) (j : Jobs) : (j.tele' f e).counters = j.counters := rfl
@[simp] theorem Jobs.tele'_work (f : TeleEnv → Tele → Tele) (e : Env) (j : Jobs) : (j.tele' f e).work = j.work := rfl
@[simp] theorem Jobs.tele'_choices (f : TeleEnv → Tele → Tele) (e : Env) (j : Jobs) : (j.tele' f e).choices = j.choices := rfl

/-! ## Jobs.tell and Jobs.tellFirst -/

@[simp] theorem Jobs.tell_level (evs : List Event) (j : Jobs) : (j.tell evs).level = j.level := rfl
@[simp] theorem Jobs.tell_suspects (evs : List Event) (j : Jobs) : (j.tell evs).suspects = j.suspects := rfl
@[simp] theorem Jobs.tell_acts (evs : List Event) (j : Jobs) : (j.tell evs).acts = j.acts := rfl
@[simp] theorem Jobs.tell_queue (evs : List Event) (j : Jobs) : (j.tell evs).queue = j.queue := rfl
@[simp] theorem Jobs.tell_flight (evs : List Event) (j : Jobs) : (j.tell evs).flight = j.flight := rfl
@[simp] theorem Jobs.tell_fill (evs : List Event) (j : Jobs) : (j.tell evs).fill = j.fill := rfl
@[simp] theorem Jobs.tell_runs (evs : List Event) (j : Jobs) : (j.tell evs).runs = j.runs := rfl
@[simp] theorem Jobs.tell_guard (evs : List Event) (j : Jobs) : (j.tell evs).guard = j.guard := rfl
@[simp] theorem Jobs.tell_frost (evs : List Event) (j : Jobs) : (j.tell evs).frost = j.frost := rfl
@[simp] theorem Jobs.tell_power (evs : List Event) (j : Jobs) : (j.tell evs).power = j.power := rfl
@[simp] theorem Jobs.tell_tele (evs : List Event) (j : Jobs) : (j.tell evs).tele = j.tele := rfl
@[simp] theorem Jobs.tell_store (evs : List Event) (j : Jobs) : (j.tell evs).store = j.store := rfl
@[simp] theorem Jobs.tell_counters (evs : List Event) (j : Jobs) : (j.tell evs).counters = j.counters := rfl
@[simp] theorem Jobs.tellFirst_level (evs : List Event) (j : Jobs) : (j.tellFirst evs).level = j.level := rfl
@[simp] theorem Jobs.tellFirst_suspects (evs : List Event) (j : Jobs) : (j.tellFirst evs).suspects = j.suspects := rfl
@[simp] theorem Jobs.tellFirst_acts (evs : List Event) (j : Jobs) : (j.tellFirst evs).acts = j.acts := rfl
@[simp] theorem Jobs.tellFirst_queue (evs : List Event) (j : Jobs) : (j.tellFirst evs).queue = j.queue := rfl
@[simp] theorem Jobs.tellFirst_flight (evs : List Event) (j : Jobs) : (j.tellFirst evs).flight = j.flight := rfl
@[simp] theorem Jobs.tellFirst_fill (evs : List Event) (j : Jobs) : (j.tellFirst evs).fill = j.fill := rfl
@[simp] theorem Jobs.tellFirst_runs (evs : List Event) (j : Jobs) : (j.tellFirst evs).runs = j.runs := rfl
@[simp] theorem Jobs.tellFirst_guard (evs : List Event) (j : Jobs) : (j.tellFirst evs).guard = j.guard := rfl
@[simp] theorem Jobs.tellFirst_frost (evs : List Event) (j : Jobs) : (j.tellFirst evs).frost = j.frost := rfl
@[simp] theorem Jobs.tellFirst_power (evs : List Event) (j : Jobs) : (j.tellFirst evs).power = j.power := rfl
@[simp] theorem Jobs.tellFirst_tele (evs : List Event) (j : Jobs) : (j.tellFirst evs).tele = j.tele := rfl
@[simp] theorem Jobs.tellFirst_store (evs : List Event) (j : Jobs) : (j.tellFirst evs).store = j.store := rfl
@[simp] theorem Jobs.tellFirst_counters (evs : List Event) (j : Jobs) : (j.tellFirst evs).counters = j.counters := rfl

/-! ## Jobs.updateRun -/

@[simp] theorem Jobs.updateRun_level (n : Nat) (f : Run → Run) (j : Jobs) : (j.updateRun n f).level = j.level := by
  unfold Jobs.updateRun; split <;> rfl
@[simp] theorem Jobs.updateRun_suspects (n : Nat) (f : Run → Run) (j : Jobs) : (j.updateRun n f).suspects = j.suspects := by
  unfold Jobs.updateRun; split <;> rfl
@[simp] theorem Jobs.updateRun_acts (n : Nat) (f : Run → Run) (j : Jobs) : (j.updateRun n f).acts = j.acts := by
  unfold Jobs.updateRun; split <;> rfl
@[simp] theorem Jobs.updateRun_queue (n : Nat) (f : Run → Run) (j : Jobs) : (j.updateRun n f).queue = j.queue := by
  unfold Jobs.updateRun; split <;> rfl
@[simp] theorem Jobs.updateRun_flight (n : Nat) (f : Run → Run) (j : Jobs) : (j.updateRun n f).flight = j.flight := by
  unfold Jobs.updateRun; split <;> rfl
@[simp] theorem Jobs.updateRun_fill (n : Nat) (f : Run → Run) (j : Jobs) : (j.updateRun n f).fill = j.fill := by
  unfold Jobs.updateRun; split <;> rfl
@[simp] theorem Jobs.updateRun_guard (n : Nat) (f : Run → Run) (j : Jobs) : (j.updateRun n f).guard = j.guard := by
  unfold Jobs.updateRun; split <;> rfl
@[simp] theorem Jobs.updateRun_frost (n : Nat) (f : Run → Run) (j : Jobs) : (j.updateRun n f).frost = j.frost := by
  unfold Jobs.updateRun; split <;> rfl
@[simp] theorem Jobs.updateRun_power (n : Nat) (f : Run → Run) (j : Jobs) : (j.updateRun n f).power = j.power := by
  unfold Jobs.updateRun; split <;> rfl
@[simp] theorem Jobs.updateRun_tele (n : Nat) (f : Run → Run) (j : Jobs) : (j.updateRun n f).tele = j.tele := by
  unfold Jobs.updateRun; split <;> rfl
@[simp] theorem Jobs.updateRun_store (n : Nat) (f : Run → Run) (j : Jobs) : (j.updateRun n f).store = j.store := by
  unfold Jobs.updateRun; split <;> rfl
@[simp] theorem Jobs.updateRun_counters (n : Nat) (f : Run → Run) (j : Jobs) : (j.updateRun n f).counters = j.counters := by
  unfold Jobs.updateRun; split <;> rfl
@[simp] theorem Jobs.updateRun_work (n : Nat) (f : Run → Run) (j : Jobs) : (j.updateRun n f).work = j.work := by
  unfold Jobs.updateRun; split <;> rfl
@[simp] theorem Jobs.updateRun_choices (n : Nat) (f : Run → Run) (j : Jobs) : (j.updateRun n f).choices = j.choices := by
  unfold Jobs.updateRun; split <;> rfl

/-! ## Updates of the whole state -/

@[simp] theorem State.withPart_loop (p : Part) (s : State) : (s.withPart p).loop = s.loop := rfl
@[simp] theorem State.withPart_env (p : Part) (s : State) : (s.withPart p).env = p.1 := rfl
@[simp] theorem State.withPart_jobs (p : Part) (s : State) : (s.withPart p).jobs = p.2 := rfl
@[simp] theorem State.withPart_powered (p : Part) (s : State) : (s.withPart p).powered = s.powered := rfl
@[simp] theorem State.withPart_pending (p : Part) (s : State) : (s.withPart p).pending = s.pending := rfl
@[simp] theorem State.withPart_part (s : State) : s.withPart s.part = s := rfl
@[simp] theorem State.tally_loop (f : Jobs → Jobs) (s : State) : (s.tally f).loop = s.loop := rfl
@[simp] theorem State.tally_env (f : Jobs → Jobs) (s : State) : (s.tally f).env = s.env := rfl
@[simp] theorem State.tally_jobs (f : Jobs → Jobs) (s : State) : (s.tally f).jobs = f s.jobs := rfl
@[simp] theorem State.tally_powered (f : Jobs → Jobs) (s : State) : (s.tally f).powered = s.powered := rfl
@[simp] theorem State.tally_pending (f : Jobs → Jobs) (s : State) : (s.tally f).pending = s.pending := rfl
@[simp] theorem State.change_loop (f : Part → Part) (s : State) : (s.change f).loop = s.loop := rfl
@[simp] theorem State.change_env (f : Part → Part) (s : State) : (s.change f).env = (f s.part).1 := rfl
@[simp] theorem State.change_powered (f : Part → Part) (s : State) : (s.change f).powered = s.powered := rfl
@[simp] theorem State.change_pending (f : Part → Part) (s : State) : (s.change f).pending = s.pending := rfl
@[simp] theorem State.work_loop (f : Env → Jobs → Jobs) (s : State) : (s.work f).loop = s.loop := rfl
@[simp] theorem State.work_env (f : Env → Jobs → Jobs) (s : State) : (s.work f).env = s.env := rfl
@[simp] theorem State.work_powered (f : Env → Jobs → Jobs) (s : State) : (s.work f).powered = s.powered := rfl
@[simp] theorem State.work_pending (f : Env → Jobs → Jobs) (s : State) : (s.work f).pending = s.pending := rfl

/-- R14: only the CREDIT_WAIT timer moves when a command ends. -/
@[simp] theorem State.creditWatch_env (s : State) : s.creditWatch.env = s.env := rfl
@[simp] theorem State.creditWatch_jobs (s : State) : s.creditWatch.jobs = s.jobs := rfl
@[simp] theorem State.creditWatch_powered (s : State) : s.creditWatch.powered = s.powered := rfl
@[simp] theorem State.creditWatch_pending (s : State) : s.creditWatch.pending = s.pending := rfl
theorem State.creditWatch_loop (s : State) :
    s.creditWatch.loop = { s.loop with creditWait := s.creditWatch.loop.creditWait } := rfl
@[simp] theorem State.creditWatch_credits (s : State) : s.creditWatch.loop.credits = s.loop.credits := rfl
@[simp] theorem State.creditWatch_lQueue (s : State) : s.creditWatch.loop.lQueue = s.loop.lQueue := rfl
@[simp] theorem State.creditWatch_fQueue (s : State) : s.creditWatch.loop.fQueue = s.loop.fQueue := rfl
@[simp] theorem State.creditWatch_lTx (s : State) : s.creditWatch.loop.lTx = s.loop.lTx := rfl
@[simp] theorem State.creditWatch_fTx (s : State) : s.creditWatch.loop.fTx = s.loop.fTx := rfl
@[simp] theorem State.creditWatch_streak (s : State) : s.creditWatch.loop.streak = s.loop.streak := rfl
@[simp] theorem State.creditWatch_turn (s : State) : s.creditWatch.loop.turn = s.loop.turn := rfl
@[simp] theorem State.creditWatch_badRun (s : State) : s.creditWatch.loop.badRun = s.loop.badRun := rfl

end Sys2Proof.Machine
end

