-- ==== Sys2Proof/Laws/Tele.lean ====
section
/-!
SUPPORT. The Condition and Report units: what every operation on them keeps. Each lemma says of one operation that it keeps
the bounds of `Tele.Bounded`, or leaves the active flags and the alert line as they are.
-/

namespace Sys2Proof.Machine

/-! ## Tables -/

@[simp] theorem updateAt_length {α : Type} (f : α → α) (i : Nat) (l : List α) : (updateAt f i l).length = l.length := by
  induction l generalizing i with
  | nil => cases i <;> rfl
  | cons x xs ih => cases i with
    | zero => rfl
    | succ i => simp [updateAt, ih]

theorem updateAt_getD_self {α : Type} (f : α → α) (d : α) (i : Nat) (l : List α) (h : i < l.length) :
    (updateAt f i l).getD i d = f (l.getD i d) := by
  induction l generalizing i with
  | nil => simp at h
  | cons x xs ih => cases i with
    | zero => rfl
    | succ i => simpa [updateAt] using ih i (by simpa using h)

theorem updateAt_getD_ne {α : Type} (f : α → α) (d : α) (i k : Nat) (l : List α) (h : k ≠ i) :
    (updateAt f i l).getD k d = l.getD k d := by
  induction l generalizing i k with
  | nil => cases i <;> rfl
  | cons x xs ih => cases i with
    | zero => cases k with
      | zero => exact absurd rfl h
      | succ k => rfl
    | succ i => cases k with
      | zero => rfl
      | succ k => simpa [updateAt] using ih i k (by omega)

/-- A table whose entries an update leaves the same under a view shows the same view everywhere. -/
theorem updateAt_map {α β : Type} (g : α → β) (f : α → α) (i : Nat) (l : List α) (h : ∀ x, g (f x) = g x) :
    (updateAt f i l).map g = l.map g := by
  induction l generalizing i with
  | nil => cases i <;> rfl
  | cons x xs ih => cases i with
    | zero => simp [updateAt, h]
    | succ i => simp [updateAt, ih]

theorem updateAt_getD_view {α β : Type} (g : α → β) (f : α → α) (d : α) (i k : Nat) (l : List α) (h : ∀ x, g (f x) = g x) :
    g ((updateAt f i l).getD k d) = g (l.getD k d) := by
  by_cases hk : k = i
  · subst hk
    by_cases hl : k < l.length
    · rw [updateAt_getD_self f d k l hl, h]
    · rw [List.getD_eq_default _ _ (by simpa using hl), List.getD_eq_default _ _ (by omega)]
  · rw [updateAt_getD_ne f d i k l hk]

/-! ## What packing keeps -/

theorem Tele.cond_updateCond_view {β : Type} (g : Cond → β) (f : Cond → Cond) (k k' : CondKind) (t : Tele)
    (h : ∀ c, g (f c) = g c) : g ((t.updateCond k f).cond k') = g (t.cond k') :=
  updateAt_getD_view g f _ _ _ _ h

theorem CondKind.code_injective {k k' : CondKind} (h : k.code = k'.code) : k = k' := by
  cases k <;> cases k' <;> first | rfl | exact absurd h (by decide)

theorem Tele.cond_updateCond_ne (f : Cond → Cond) {k k' : CondKind} (t : Tele) (h : k' ≠ k) :
    (t.updateCond k f).cond k' = t.cond k' :=
  updateAt_getD_ne f _ _ _ _ (fun e => h (CondKind.code_injective e))

/-- What packing an item never moves: the flags of every kind and the line. -/
structure Tele.Same (t t' : Tele) : Prop where
  flags : ∀ k, t'.flags k = t.flags k
  alert : t'.alert = t.alert
  pulse : t'.pulse = t.pulse
  conds : t'.conds.length = t.conds.length

theorem Tele.Same.refl (t : Tele) : Tele.Same t t := ⟨fun _ => rfl, rfl, rfl, rfl⟩

theorem Tele.Same.trans {t t' t'' : Tele} (h : Tele.Same t t') (h' : Tele.Same t' t'') : Tele.Same t t'' :=
  ⟨fun k => (h'.flags k).trans (h.flags k), h'.alert.trans h.alert, h'.pulse.trans h.pulse, h'.conds.trans h.conds⟩

theorem Tele.same_updateCond (f : Cond → Cond) (k : CondKind) (t : Tele)
    (h : ∀ c : Cond, ((f c).active, (f c).acked, (f c).occurrences) = (c.active, c.acked, c.occurrences)) :
    Tele.Same t (t.updateCond k f) :=
  ⟨fun k' => Tele.cond_updateCond_view (fun c => (c.active, c.acked, c.occurrences)) f k k' t h, rfl, rfl,
    updateAt_length f _ _⟩

theorem Tele.same_kindPacked (k : CondKind) (t : Tele) : Tele.Same t (t.kindPacked k) :=
  t.same_updateCond _ k (fun _ => rfl)

theorem Tele.same_policyPacked (v : TeleEnv) (i : Nat) (t : Tele) : Tele.Same t (t.policyPacked v i) :=
  ⟨fun _ => rfl, rfl, rfl, rfl⟩

theorem Tele.same_noticePacked (n : Notice) (t : Tele) : Tele.Same t (t.noticePacked n) := by
  cases n with
  | condition k => exact Tele.Same.trans (t' := { t with notices := t.notices.tail }) ⟨fun _ => rfl, rfl, rfl, rfl⟩ (Tele.same_kindPacked k _)
  | _ => exact ⟨fun _ => rfl, rfl, rfl, rfl⟩

theorem Tele.same_packOne {v : TeleEnv} {c : ReportCell} {t : Tele} {r : ReportCell × Tele} (h : packOne v c t = some r) :
    Tele.Same t r.2 := by
  have due : ∀ {r}, (match oldestDue c t.due with
      | some i => some (c.packRoutine v (.policy i (packed (v.figure i))), t.policyPacked v i)
      | none => none) = some r → Tele.Same t r.2 := by
    intro r h
    split at h
    · cases h; exact t.same_policyPacked v _
    · cases h
  unfold packOne at h
  dsimp only at h
  cases hn : t.notices with
  | nil => rw [hn] at h; exact due h
  | cons n rest =>
    rw [hn] at h
    dsimp only at h
    by_cases hc : c.takesNotice n = true
    · rw [if_pos hc] at h; cases h; exact t.same_noticePacked _
    · rw [if_neg hc] at h; exact due h

theorem Tele.same_packRoutine {v : TeleEnv} {t t' : Tele} (h : t.packRoutine v = some t') : Tele.Same t t' := by
  unfold Tele.packRoutine at h
  split at h <;>
  · obtain ⟨r, hr, rfl⟩ := Option.map_eq_some_iff.mp h
    exact (Tele.same_packOne hr).trans ⟨fun _ => rfl, rfl, rfl, rfl⟩

theorem Tele.same_packUrgent {t t' : Tele} (h : t.packUrgent = some t') : Tele.Same t t' := by
  unfold Tele.packUrgent at h
  split at h
  · cases h
  · split at h
    · cases h
      refine Tele.Same.trans ?_ (Tele.same_kindPacked _ _)
      exact ⟨fun _ => rfl, rfl, rfl, rfl⟩
    · cases h

/-- What a repeated packing keeps: a relation that each step keeps. -/
theorem packLoop_keeps {step : Tele → Option Tele} (R : Tele → Tele → Prop) (refl : ∀ t, R t t)
    (trans : ∀ {a b c}, R a b → R b c → R a c) (h : ∀ {t t'}, step t = some t' → R t t') (n : Nat) (t : Tele) :
    R t (packLoop step n t) := by
  induction n generalizing t with
  | zero => exact refl t
  | succ n ih =>
    unfold packLoop
    split
    · exact refl t
    · next h' => exact trans (h h') (ih _)

/-- Packing moves no flag and not the line. -/
theorem Tele.same_pack (v : TeleEnv) (t : Tele) : Tele.Same t (t.pack v) :=
  (packLoop_keeps _ Tele.Same.refl Tele.Same.trans Tele.same_packUrgent 3 t).trans
    (packLoop_keeps _ Tele.Same.refl Tele.Same.trans Tele.same_packRoutine 6 _)

theorem Tele.same_dropOldest (t : Tele) : Tele.Same t t.dropOldest := by
  unfold Tele.dropOldest
  split
  · exact .refl t
  · split
    · next k _ =>
      exact Tele.Same.trans (t.same_updateCond (fun c => { c with queued := false }) k (fun _ => rfl))
        ⟨fun _ => rfl, rfl, rfl, rfl⟩
    · exact ⟨fun _ => rfl, rfl, rfl, rfl⟩

theorem Tele.same_postNotice (v : TeleEnv) (n : Notice) (t : Tele) : Tele.Same t (t.postNotice v n) := by
  unfold Tele.postNotice
  refine Tele.Same.trans (t' := if t.notices.length ≥ Config.noticeMax then t.dropOldest else t) ?_
    (Tele.Same.trans ?_ (Tele.same_pack v _))
  · split
    · exact t.same_dropOldest
    · exact .refl t
  · exact ⟨fun _ => rfl, rfl, rfl, rfl⟩

theorem Tele.same_noticeKind (v : TeleEnv) (k : CondKind) (t : Tele) : Tele.Same t (t.noticeKind v k) := by
  unfold Tele.noticeKind
  split
  · exact .refl t
  · exact (t.same_updateCond (fun c => { c with queued := true }) k (fun _ => rfl)).trans (Tele.same_postNotice v _ _)

theorem Tele.same_joinUrgent (k : CondKind) (t : Tele) : Tele.Same t (t.joinUrgent k) := by
  unfold Tele.joinUrgent
  split
  · exact .refl t
  · exact ⟨fun _ => rfl, rfl, rfl, rfl⟩

/-- Reporting a change moves no flag and not the line. -/
theorem Tele.same_report (v : TeleEnv) (k : CondKind) (t : Tele) : Tele.Same t (t.report v k) := by
  unfold Tele.report
  split
  · exact (t.same_joinUrgent k).trans (Tele.same_pack v _)
  · exact t.same_noticeKind v k

theorem Tele.same_becomeDue (i : Nat) (t : Tele) : Tele.Same t (t.becomeDue i) := by
  unfold Tele.becomeDue
  split
  · exact .refl t
  · exact ⟨fun _ => rfl, rfl, rfl, rfl⟩

theorem Tele.same_valueEvent (v : TeleEnv) (i : Nat) (t : Tele) : Tele.Same t (t.valueEvent v i) := by
  unfold Tele.valueEvent
  split
  · exact .refl t
  · split
    · exact t.same_becomeDue i
    · exact .refl t

/-- A relation kept by each step of a fold is kept by the fold. -/
theorem foldl_keeps {α β : Type} (R : α → α → Prop) (refl : ∀ a, R a a) (trans : ∀ {a b c}, R a b → R b c → R a c)
    (f : α → β → α) (h : ∀ a b, R a (f a b)) (l : List β) (a : α) : R a (l.foldl f a) := by
  induction l generalizing a with
  | nil => exact refl a
  | cons b l ih => exact trans (h a b) (ih _)

theorem Tele.same_quantityChanged (v : TeleEnv) (q : Nat) (t : Tele) : Tele.Same t (t.quantityChanged v q) := by
  unfold Tele.quantityChanged
  refine Tele.Same.trans (foldl_keeps _ Tele.Same.refl Tele.Same.trans _ (fun t i => ?_) _ t) (Tele.same_pack v _)
  split
  · exact t.same_valueEvent v i
  · exact .refl t

theorem Tele.same_figuresChanged (v : TeleEnv) (b : List (Option Int)) (t : Tele) : Tele.Same t (t.figuresChanged v b) := by
  unfold Tele.figuresChanged
  refine foldl_keeps _ Tele.Same.refl Tele.Same.trans _ (fun t q => ?_) _ t
  split
  · exact t.same_quantityChanged v q
  · exact .refl t

theorem Tele.same_repost (v : TeleEnv) (t : Tele) : Tele.Same t (t.repost v) := by
  unfold Tele.repost
  refine foldl_keeps _ Tele.Same.refl Tele.Same.trans _ (fun t k => ?_) _ t
  split
  · exact t.same_noticeKind v k
  · exact .refl t

theorem Tele.same_allDue (v : TeleEnv) (t : Tele) : Tele.Same t (t.allDue v) := by
  unfold Tele.allDue
  refine Tele.Same.trans (foldl_keeps _ Tele.Same.refl Tele.Same.trans _ (fun t i => ?_) _ t) (Tele.same_pack v _)
  split
  · exact .refl t
  · exact t.same_becomeDue i

theorem Tele.same_minimumExpiry (v : TeleEnv) (i : Nat) (t : Tele) : Tele.Same t (t.minimumExpiry v i) := by
  unfold Tele.minimumExpiry
  split
  · refine Tele.Same.trans (t' := t.updatePolicy i (fun p => { p with minTimer := none })) ⟨fun _ => rfl, rfl, rfl, rfl⟩
      (Tele.Same.trans ?_ (Tele.same_pack v _))
    split
    · exact Tele.same_becomeDue i _
    · exact .refl _
  · exact .refl t

theorem Tele.same_maximumExpiry (v : TeleEnv) (i : Nat) (t : Tele) : Tele.Same t (t.maximumExpiry v i) := by
  unfold Tele.maximumExpiry
  split
  · exact Tele.Same.trans (t' := t.updatePolicy i (fun p => { p with maxTimer := none })) ⟨fun _ => rfl, rfl, rfl, rfl⟩
      ((Tele.same_becomeDue i _).trans (Tele.same_pack v _))
  · exact .refl t

theorem Tele.same_packHoldExpiry (c : RoutineCell) (t : Tele) : Tele.Same t (t.packHoldExpiry c) := by
  cases c with
  | opened =>
    unfold Tele.packHoldExpiry
    dsimp only
    split
    · exact ⟨fun _ => rfl, rfl, rfl, rfl⟩
    · exact .refl t
  | runAhead => exact ⟨fun _ => rfl, rfl, rfl, rfl⟩

end Sys2Proof.Machine
end

