-- ==== Sys2Proof/Laws/TeleMoves.lean ====
section
/-!
SUPPORT. Raises and clears: what each does to the flags, to the alert line and to the bounds of the Report unit; and the
relation `TeleMoves` that holds between the units before and after anything the blocks tell them while tellings settle.
-/

namespace Sys2Proof.Machine

/-! ## The alert line (R157) -/

theorem Tele.AlertFollows.of_same {a : AlertSettings} {t t' : Tele} (h : Tele.Same t t') (ht : t.AlertFollows a) :
    t'.AlertFollows a := by
  intro hm
  have hf : ∀ k, (t'.cond k).active = (t.cond k).active ∧ (t'.cond k).acked = (t.cond k).acked := fun k => by
    have := h.flags k
    simp only [Tele.flags, Prod.mk.injEq] at this
    exact ⟨this.1, this.2.1⟩
  rw [h.alert, ht hm]
  simp only [Tele.Unanswered, hf]

theorem Tele.alertLevel_iff (v : TeleEnv) (t : Tele) : t.alertLevel v = true ↔ t.Unanswered v.alerts := by
  simp [Tele.alertLevel, Tele.Unanswered, and_assoc]

/-- A derivation puts the line where R157 wants it. -/
theorem Tele.alertFollows_derive (v : TeleEnv) (t : Tele) : (t.deriveAlert v).AlertFollows v.alerts := by
  intro hm
  unfold Tele.deriveAlert
  rw [hm]
  exact t.alertLevel_iff v

theorem AlertSettings.enabled_urgent {a : AlertSettings} {k : CondKind} (h : a.enabled k = true) : k.urgent = true := by
  simp only [AlertSettings.enabled, Bool.and_eq_true] at h
  exact h.1

/-- A change of the entry of a ROUTINE kind does not touch the line. -/
theorem Tele.alertFollows_routine {a : AlertSettings} {t : Tele} {k : CondKind} (f : Cond → Cond) (hk : k.urgent = false)
    (h : t.AlertFollows a) : (t.updateCond k f).AlertFollows a := by
  intro hm
  have : (t.updateCond k f).alert = t.alert := rfl
  rw [this, h hm]
  unfold Tele.Unanswered
  refine exists_congr (fun k' => and_congr_right (fun _ => and_congr_right (fun he => ?_)))
  have hne : k' ≠ k := fun e => by rw [← e, a.enabled_urgent he] at hk; cases hk
  rw [Tele.cond_updateCond_ne f t hne]

theorem Tele.alertFollows_raise (v : TeleEnv) (k : CondKind) (t : Tele) (h : t.AlertFollows v.alerts) :
    (t.raise v k).AlertFollows v.alerts := by
  unfold Tele.raise
  split
  · exact h
  · dsimp only
    refine Tele.AlertFollows.of_same (Tele.same_report v k _) ?_
    split
    · intro hm
      simp only [Tele.alertOnRaise, hm]
      exact (Tele.alertFollows_derive v _) hm
    · next hk => exact Tele.alertFollows_routine _ (by simpa using hk) h

theorem Tele.alertFollows_clear (v : TeleEnv) (k : CondKind) (t : Tele) (h : t.AlertFollows v.alerts) :
    (t.clear v k).AlertFollows v.alerts := by
  unfold Tele.clear
  split
  · exact h
  · dsimp only
    refine Tele.AlertFollows.of_same (Tele.same_report v k _) ?_
    split
    · exact Tele.alertFollows_derive v _
    · next hk => exact Tele.alertFollows_routine _ (by simpa using hk) h

theorem Tele.alertFollows_acknowledge (v : TeleEnv) (k : CondKind) (t : Tele) (h : t.AlertFollows v.alerts) :
    (t.acknowledge v k).AlertFollows v.alerts := by
  unfold Tele.acknowledge
  split
  · exact h
  · dsimp only
    refine Tele.AlertFollows.of_same (Tele.same_report v k _) ?_
    split
    · exact Tele.alertFollows_derive v _
    · next hk => exact Tele.alertFollows_routine _ (by simpa using hk) h

/-! ## Flags after a raise or a clear (R149, R150) -/

theorem Tele.flags_alertOnRaise (v : TeleEnv) (k k' : CondKind) (t : Tele) :
    (t.alertOnRaise v k).flags k' = t.flags k' := by
  unfold Tele.alertOnRaise Tele.deriveAlert
  split
  · rfl
  · split <;> rfl

theorem Tele.flags_deriveAlert (v : TeleEnv) (k' : CondKind) (t : Tele) : (t.deriveAlert v).flags k' = t.flags k' := by
  unfold Tele.deriveAlert
  split <;> rfl

/-- A raise of one kind moves no flag of another. -/
theorem Tele.flags_raise_ne (v : TeleEnv) {k k' : CondKind} (h : k' ≠ k) (t : Tele) :
    (t.raise v k).flags k' = t.flags k' := by
  unfold Tele.raise
  split
  · rfl
  · dsimp only
    rw [(Tele.same_report v k _).flags k']
    split
    · rw [Tele.flags_alertOnRaise]; simp only [Tele.flags, Tele.cond_updateCond_ne _ t h]
    · simp only [Tele.flags, Tele.cond_updateCond_ne _ t h]

/-- A clear of one kind moves no flag of another. -/
theorem Tele.flags_clear_ne (v : TeleEnv) {k k' : CondKind} (h : k' ≠ k) (t : Tele) :
    (t.clear v k).flags k' = t.flags k' := by
  unfold Tele.clear
  split
  · rfl
  · dsimp only
    rw [(Tele.same_report v k _).flags k']
    split
    · rw [Tele.flags_deriveAlert]; simp only [Tele.flags, Tele.cond_updateCond_ne _ t h]
    · simp only [Tele.flags, Tele.cond_updateCond_ne _ t h]

theorem CondKind.code_lt (k : CondKind) : k.code < 22 := by cases k <;> decide

theorem Tele.cond_updateCond_self (f : Cond → Cond) (k : CondKind) (t : Tele) (h : t.conds.length = 22) :
    (t.updateCond k f).cond k = f (t.cond k) :=
  updateAt_getD_self f _ _ _ (by rw [h]; exact k.code_lt)

/-- R149: after a raise the kind is active; an inactive one is unacknowledged and counts one occurrence more. -/
theorem Tele.flags_raise_self (v : TeleEnv) (k : CondKind) (t : Tele) (h : t.conds.length = 22) :
    (t.raise v k).flags k =
      if (t.cond k).active then t.flags k else (true, false, min 255 ((t.cond k).occurrences + 1)) := by
  unfold Tele.raise
  split
  · rfl
  · dsimp only
    rw [(Tele.same_report v k _).flags k]
    split
    · rw [Tele.flags_alertOnRaise]; simp only [Tele.flags, Tele.cond_updateCond_self _ k t h]
    · simp only [Tele.flags, Tele.cond_updateCond_self _ k t h]

/-- R150: after a clear the kind is inactive with its other flags kept, but for OVERFLOW_TRIP while the latch is set. -/
theorem Tele.flags_clear_self (v : TeleEnv) (k : CondKind) (t : Tele) (h : t.conds.length = 22)
    (hl : ¬(k = .overflowTrip ∧ v.latch = true)) :
    (t.clear v k).flags k = (false, (t.cond k).acked, (t.cond k).occurrences) := by
  unfold Tele.clear
  split
  · next hc =>
    have ha : (t.cond k).active = false := by
      simp only [Bool.or_eq_true, Bool.not_eq_true', Bool.and_eq_true, beq_iff_eq] at hc
      exact hc.resolve_right hl
    simp only [Tele.flags, ha]
  · dsimp only
    rw [(Tele.same_report v k _).flags k]
    split
    · rw [Tele.flags_deriveAlert]; simp only [Tele.flags, Tele.cond_updateCond_self _ k t h]
    · simp only [Tele.flags, Tele.cond_updateCond_self _ k t h]

@[simp] theorem Tele.raise_conds_length (v : TeleEnv) (k : CondKind) (t : Tele) :
    (t.raise v k).conds.length = t.conds.length := by
  unfold Tele.raise
  split
  · rfl
  · dsimp only
    rw [(Tele.same_report v k _).conds]
    split
    · unfold Tele.alertOnRaise Tele.deriveAlert
      split
      · exact updateAt_length _ _ _
      · split <;> exact updateAt_length _ _ _
    · exact updateAt_length _ _ _

@[simp] theorem Tele.clear_conds_length (v : TeleEnv) (k : CondKind) (t : Tele) :
    (t.clear v k).conds.length = t.conds.length := by
  unfold Tele.clear
  split
  · rfl
  · dsimp only
    rw [(Tele.same_report v k _).conds]
    split
    · unfold Tele.deriveAlert
      split <;> exact updateAt_length _ _ _
    · exact updateAt_length _ _ _

theorem Tele.deriveAlert_pulse (v : TeleEnv) (t : Tele) : (t.deriveAlert v).pulse = t.pulse := by
  unfold Tele.deriveAlert
  split <;> rfl

/-- R158: a raise in LEVEL mode starts no pulse. -/
theorem Tele.raise_pulse (v : TeleEnv) (k : CondKind) (t : Tele) (hm : v.alerts.mode = .level) :
    (t.raise v k).pulse = t.pulse := by
  unfold Tele.raise
  split
  · rfl
  · refine (Tele.same_report v k _).pulse.trans ?_
    split
    · unfold Tele.alertOnRaise
      rw [hm]
      exact Tele.deriveAlert_pulse v _
    · rfl

/-- R158: a clear does not touch a pulse. -/
theorem Tele.clear_pulse (v : TeleEnv) (k : CondKind) (t : Tele) : (t.clear v k).pulse = t.pulse := by
  unfold Tele.clear
  split
  · rfl
  · refine (Tele.same_report v k _).pulse.trans ?_
    split
    · exact Tele.deriveAlert_pulse v _
    · rfl

end Sys2Proof.Machine
end

