-- ==== Sys2Proof/Laws/TeleBounds.lean ====
section
/-!
SUPPORT. The bounds of the Report unit (R152, R163 to R165): every operation on the Condition and Report units keeps them.
-/

namespace Sys2Proof.Machine

/-- The bounds of `Tele.Bounded`, by name. -/
structure Tele.Bounds (t : Tele) : Prop where
  notices : t.notices.length ≤ 8
  urgent : t.urgent.items.length ≤ 3
  opened : t.opened.items.length ≤ 3
  ahead : (t.ahead.getD .empty).items.length ≤ 3
  urgentDue : t.urgentDue.Nodup
  due : t.due.Nodup
  policies : t.policies.length = 24
  flagged : ∀ i ∈ t.due, (t.policy i).due = true

theorem Tele.bounded_iff (t : Tele) : t.Bounded ↔ t.Bounds :=
  ⟨fun ⟨a, b, c, d, e, f, g, h⟩ => ⟨a, b, c, d, e, f, g, h⟩, fun ⟨a, b, c, d, e, f, g, h⟩ => ⟨a, b, c, d, e, f, g, h⟩⟩

/-- The fields that the bounds read. -/
theorem Tele.Bounds.congr {t t' : Tele} (h : t.Bounds) (h1 : t'.notices = t.notices) (h2 : t'.urgent = t.urgent)
    (h3 : t'.opened = t.opened) (h4 : t'.ahead = t.ahead) (h5 : t'.urgentDue = t.urgentDue) (h6 : t'.due = t.due)
    (h7 : t'.policies = t.policies) : t'.Bounds :=
  ⟨h1 ▸ h.notices, h2 ▸ h.urgent, h3 ▸ h.opened, h4 ▸ h.ahead, h5 ▸ h.urgentDue, h6 ▸ h.due, h7 ▸ h.policies, by
    have : ∀ i, t'.policy i = t.policy i := fun i => by simp only [Tele.policy, h7]
    rw [h6]; simpa only [this] using h.flagged⟩

theorem Tele.Bounds.updateCond {t : Tele} (h : t.Bounds) (k : CondKind) (f : Cond → Cond) : (t.updateCond k f).Bounds :=
  h.congr rfl rfl rfl rfl rfl rfl rfl

theorem ReportCell.packRoutine_length (v : TeleEnv) (x : ReportItem) (c : ReportCell) :
    (c.packRoutine v x).items.length = c.items.length + 1 := by
  unfold ReportCell.packRoutine
  dsimp only
  split
  · simp
  · split
    · split <;> simp
    · simp

theorem ReportCell.room_lt {c : ReportCell} (h : c.room = true) : c.items.length < 3 := by
  exact of_decide_eq_true h

theorem ReportCell.takesNotice_room {c : ReportCell} {n : Notice} (h : c.takesNotice n = true) : c.room = true := by
  unfold ReportCell.takesNotice at h
  split at h
  · exact (Bool.and_eq_true _ _ ▸ h).1
  · exact h

theorem oldestDue_some {c : ReportCell} {due : List Nat} {i : Nat} (h : oldestDue c due = some i) :
    c.room = true ∧ i ∈ due := by
  have h1 := List.find?_some h
  exact ⟨by simp only [ReportCell.takesPolicy, Bool.and_eq_true] at h1; exact h1.1, List.mem_of_find?_eq_some h⟩

theorem Tele.policy_updatePolicy_ne (f : PolicyRuntime → PolicyRuntime) {i k : Nat} (t : Tele) (h : k ≠ i) :
    (t.updatePolicy i f).policy k = t.policy k := updateAt_getD_ne f _ _ _ _ h

theorem Tele.policy_updatePolicy_self (f : PolicyRuntime → PolicyRuntime) {i : Nat} (t : Tele) (h : i < t.policies.length) :
    (t.updatePolicy i f).policy i = f (t.policy i) := updateAt_getD_self f _ _ _ h

theorem Tele.Bounds.updatePolicy {t : Tele} (h : t.Bounds) (i : Nat) (f : PolicyRuntime → PolicyRuntime)
    (hf : i ∈ t.due → ∀ p : PolicyRuntime, p.due = true → (f p).due = true) : (t.updatePolicy i f).Bounds where
  notices := h.notices
  urgent := h.urgent
  opened := h.opened
  ahead := h.ahead
  urgentDue := h.urgentDue
  due := h.due
  policies := (updateAt_length _ _ _).trans h.policies
  flagged := fun k hk => by
    have hk' : k ∈ t.due := hk
    by_cases e : k = i
    · subst e
      by_cases hl : k < t.policies.length
      · rw [t.policy_updatePolicy_self f hl]; exact hf hk' _ (h.flagged k hk')
      · have := h.flagged k hk'
        simp only [Tele.policy, List.getD_eq_default _ _ (Nat.le_of_not_lt hl)] at this
        cases this
    · rw [t.policy_updatePolicy_ne f e]; exact h.flagged k hk'

theorem Tele.policy_past {t : Tele} (h : t.Bounds) {i : Nat} (hi : 24 ≤ i) : t.policy i = .powerOn :=
  List.getD_eq_default _ _ (by rw [h.policies]; exact hi)

theorem Tele.Bounds.eraseDue {t : Tele} (h : t.Bounds) (i : Nat) : ({ t with due := t.due.erase i }).Bounds where
  notices := h.notices
  urgent := h.urgent
  opened := h.opened
  ahead := h.ahead
  urgentDue := h.urgentDue
  due := h.due.erase i
  policies := h.policies
  flagged := fun k hk => h.flagged k (List.mem_of_mem_erase hk)

theorem Tele.Bounds.policyPacked {t : Tele} (h : t.Bounds) (v : TeleEnv) (i : Nat) : (t.policyPacked v i).Bounds :=
  (h.eraseDue i).updatePolicy i _ (fun hi => absurd hi (h.due.not_mem_erase))

theorem Tele.Bounds.noticePacked {t : Tele} (h : t.Bounds) (n : Notice) : (t.noticePacked n).Bounds := by
  have ht : ({ t with notices := t.notices.tail } : Tele).Bounds :=
    { h with notices := by simpa using Nat.le_trans (Nat.sub_le _ 1) h.notices }
  cases n with
  | condition k => exact ht.updateCond k _
  | _ => exact ht

/-- A packing leaves the units within their bounds, and the cell it filled had room. -/
theorem Tele.Bounds.packOne {v : TeleEnv} {c : ReportCell} {t : Tele} {r : ReportCell × Tele} (h : t.Bounds)
    (hr : packOne v c t = some r) :
    r.2.Bounds ∧ r.1.items.length ≤ 3 ∧ r.2.opened = t.opened ∧ r.2.ahead = t.ahead := by
  have due : ∀ {r}, (match oldestDue c t.due with
      | some i => some (c.packRoutine v (.policy i (packed (v.figure i))), t.policyPacked v i)
      | none => none) = some r →
      r.2.Bounds ∧ r.1.items.length ≤ 3 ∧ r.2.opened = t.opened ∧ r.2.ahead = t.ahead := by
    intro r hr
    cases ho : oldestDue c t.due with
    | none => rw [ho] at hr; cases hr
    | some i =>
      rw [ho] at hr
      cases hr
      refine ⟨h.policyPacked v i, ?_, rfl, rfl⟩
      rw [ReportCell.packRoutine_length]
      exact ReportCell.room_lt (oldestDue_some ho).1
  unfold Sys2Proof.Machine.packOne at hr
  dsimp only at hr
  cases hn : t.notices with
  | nil => rw [hn] at hr; exact due hr
  | cons n rest =>
    rw [hn] at hr
    dsimp only at hr
    by_cases hc : c.takesNotice n = true
    · rw [if_pos hc] at hr
      cases hr
      refine ⟨h.noticePacked n, ?_, ?_, ?_⟩
      · rw [ReportCell.packRoutine_length]
        exact ReportCell.room_lt (ReportCell.takesNotice_room hc)
      · cases n <;> rfl
      · cases n <;> rfl
    · rw [if_neg hc] at hr; exact due hr

theorem Tele.Bounds.packRoutine {v : TeleEnv} {t t' : Tele} (h : t.Bounds) (hr : t.packRoutine v = some t') :
    t'.Bounds := by
  unfold Tele.packRoutine at hr
  split at hr
  · obtain ⟨r, hp, rfl⟩ := Option.map_eq_some_iff.mp hr
    obtain ⟨hb, hc, -, -⟩ := h.packOne hp
    exact ⟨hb.notices, hb.urgent, hb.opened, hc, hb.urgentDue, hb.due, hb.policies, hb.flagged⟩
  · obtain ⟨r, hp, rfl⟩ := Option.map_eq_some_iff.mp hr
    obtain ⟨hb, hc, -, -⟩ := h.packOne hp
    exact ⟨hb.notices, hb.urgent, hc, hb.ahead, hb.urgentDue, hb.due, hb.policies, hb.flagged⟩

theorem Tele.Bounds.packUrgent {t t' : Tele} (h : t.Bounds) (hr : t.packUrgent = some t') : t'.Bounds := by
  unfold Tele.packUrgent at hr
  cases hu : t.urgentDue with
  | nil => rw [hu] at hr; cases hr
  | cons k rest =>
    rw [hu] at hr
    dsimp only at hr
    split at hr
    · next hc =>
      cases hr
      simp only [Bool.and_eq_true] at hc
      have hl := ReportCell.room_lt hc.1
      have hn := h.urgentDue
      rw [hu] at hn
      have hb : Tele.Bounds { t with
          urgent := { items := t.urgent.items ++ [t.condItem k], ready := true, hold := t.urgent.hold },
          urgentDue := rest } :=
        { h with
          urgent := by simp only [List.length_append, List.length_singleton]; omega
          urgentDue := hn.of_cons }
      exact hb.updateCond k _
    · cases hr

theorem Tele.Bounds.pack {t : Tele} (h : t.Bounds) (v : TeleEnv) : (t.pack v).Bounds :=
  have h1 := packLoop_keeps (step := Tele.packUrgent) (fun t t' => t.Bounds → t'.Bounds) (fun _ => id)
    (fun a b h => b (a h)) (fun hs h => h.packUrgent hs) 3 t h
  packLoop_keeps (step := Tele.packRoutine v) (fun t t' => t.Bounds → t'.Bounds) (fun _ => id)
    (fun a b h => b (a h)) (fun hs h => h.packRoutine hs) 6 _ h1

theorem Tele.dropOldest_notices (t : Tele) : t.dropOldest.notices = t.notices.tail := by
  unfold Tele.dropOldest
  cases hn : t.notices with
  | nil => exact hn
  | cons n rest => cases n <;> rfl

theorem Tele.Bounds.dropOldest {t : Tele} (h : t.Bounds) : t.dropOldest.Bounds := by
  have hn := t.dropOldest_notices
  have hl : t.dropOldest.notices.length ≤ 8 := by
    rw [hn]; simpa using Nat.le_trans (Nat.sub_le _ 1) h.notices
  unfold Tele.dropOldest at hl ⊢
  split
  · exact h
  · next n rest hr =>
    rw [hr] at hl
    cases n <;> exact ⟨hl, h.urgent, h.opened, h.ahead, h.urgentDue, h.due, h.policies, h.flagged⟩

theorem Tele.Bounds.postNotice {t : Tele} (h : t.Bounds) (v : TeleEnv) (n : Notice) : (t.postNotice v n).Bounds := by
  unfold Tele.postNotice
  refine Tele.Bounds.pack ?_ v
  have key : ∀ u : Tele, u.Bounds → u.notices.length < 8 → ({ u with notices := u.notices ++ [n] } : Tele).Bounds :=
    fun u hu hl => { hu with notices := by simp only [List.length_append, List.length_singleton]; omega }
  by_cases hm : t.notices.length ≥ Config.noticeMax
  · rw [if_pos hm]
    refine key _ h.dropOldest ?_
    rw [Tele.dropOldest_notices, List.length_tail]
    have := h.notices
    simp only [Config.noticeMax] at hm
    omega
  · rw [if_neg hm]
    exact key _ h (by simpa [Config.noticeMax] using hm)

theorem Tele.Bounds.joinUrgent {t : Tele} (h : t.Bounds) (k : CondKind) : (t.joinUrgent k).Bounds := by
  unfold Tele.joinUrgent
  split
  · exact h
  · next hk =>
    have hk : k ∉ t.urgentDue := by simpa using hk
    have hd : (t.urgentDue ++ [k]).Nodup := List.nodup_append.mpr
      ⟨h.urgentDue, List.nodup_singleton k, fun a ha b hb e => hk (by
        rw [List.mem_singleton] at hb; rw [← hb, ← e]; exact ha)⟩
    exact { h with urgentDue := hd }

theorem Tele.Bounds.report {t : Tele} (h : t.Bounds) (v : TeleEnv) (k : CondKind) : (t.report v k).Bounds := by
  unfold Tele.report
  split
  · exact (h.joinUrgent k).pack v
  · unfold Tele.noticeKind
    split
    · exact h
    · exact (h.updateCond k _).postNotice v _

theorem Tele.Bounds.alert {t : Tele} (h : t.Bounds) (b : Bool) (p : Option Nat) :
    ({ t with alert := b, pulse := p } : Tele).Bounds := { h with }

theorem Tele.Bounds.deriveAlert {t : Tele} (h : t.Bounds) (v : TeleEnv) : (t.deriveAlert v).Bounds := by
  unfold Tele.deriveAlert
  split
  · exact { h with }
  · exact h

theorem Tele.Bounds.alertOnRaise {t : Tele} (h : t.Bounds) (v : TeleEnv) (k : CondKind) : (t.alertOnRaise v k).Bounds := by
  unfold Tele.alertOnRaise
  split
  · exact h.deriveAlert v
  · split
    · exact { h with }
    · exact h

theorem Tele.Bounds.raise {t : Tele} (h : t.Bounds) (v : TeleEnv) (k : CondKind) : (t.raise v k).Bounds := by
  unfold Tele.raise
  split
  · exact h
  · dsimp only
    refine Tele.Bounds.report ?_ v k
    split
    · exact (h.updateCond k _).alertOnRaise v k
    · exact h.updateCond k _

theorem Tele.Bounds.clear {t : Tele} (h : t.Bounds) (v : TeleEnv) (k : CondKind) : (t.clear v k).Bounds := by
  unfold Tele.clear
  split
  · exact h
  · dsimp only
    refine Tele.Bounds.report ?_ v k
    split
    · exact (h.updateCond k _).deriveAlert v
    · exact h.updateCond k _

theorem Tele.Bounds.acknowledge {t : Tele} (h : t.Bounds) (v : TeleEnv) (k : CondKind) : (t.acknowledge v k).Bounds := by
  unfold Tele.acknowledge
  split
  · exact h
  · dsimp only
    refine Tele.Bounds.report ?_ v k
    split
    · exact (h.updateCond k _).deriveAlert v
    · exact h.updateCond k _

/-- R163: an entry that becomes due joins the list once, with its flag set; the table has the entry. -/
theorem Tele.Bounds.becomeDue {t : Tele} (h : t.Bounds) {i : Nat} (hi : i < 24) : (t.becomeDue i).Bounds := by
  unfold Tele.becomeDue
  split
  · exact h
  · next hd =>
    have hn : i ∉ t.due := fun hm => hd (h.flagged i hm)
    refine ⟨h.notices, h.urgent, h.opened, h.ahead, h.urgentDue, ?_, (updateAt_length _ _ _).trans h.policies, ?_⟩
    · exact List.nodup_append.mpr ⟨h.due, List.nodup_singleton i, fun a ha b hb e => hn (by
        rw [List.mem_singleton] at hb; rw [← hb, ← e]; exact ha)⟩
    · intro k hk
      have hl : i < ({ t with due := t.due ++ [i] } : Tele).policies.length := by rw [h.policies]; exact hi
      by_cases e : k = i
      · subst e; rw [Tele.policy_updatePolicy_self _ _ hl]
      · rw [Tele.policy_updatePolicy_ne _ _ e]
        have hk' : k ∈ t.due ++ [i] := hk
        simp only [List.mem_append, List.mem_singleton, e, or_false] at hk'
        exact h.flagged k hk'

theorem Tele.Bounds.valueEvent {t : Tele} (h : t.Bounds) (v : TeleEnv) {i : Nat} (hi : i < 24) :
    (t.valueEvent v i).Bounds := by
  unfold Tele.valueEvent
  split
  · exact h
  · split
    · exact h.becomeDue hi
    · exact h

/-- A predicate kept by each step of a fold over the members of a list is kept by the fold. -/
theorem foldl_keeps_mem {α β : Type} (P : α → Prop) (f : α → β → α) (l : List β) (h : ∀ a, ∀ b ∈ l, P a → P (f a b))
    (a : α) (ha : P a) : P (l.foldl f a) := by
  induction l generalizing a with
  | nil => exact ha
  | cons b l ih =>
    exact ih (fun a b hb => h a b (List.mem_cons_of_mem _ hb)) _ (h a b List.mem_cons_self ha)

theorem Tele.Bounds.quantityChanged {t : Tele} (h : t.Bounds) (v : TeleEnv) (q : Nat) : (t.quantityChanged v q).Bounds := by
  unfold Tele.quantityChanged
  refine Tele.Bounds.pack (foldl_keeps_mem _ _ _ (fun t i hi ht => ?_) t h) v
  split
  · exact ht.valueEvent v (List.mem_range.mp hi)
  · exact ht

theorem Tele.Bounds.figuresChanged {t : Tele} (h : t.Bounds) (v : TeleEnv) (b : List (Option Int)) :
    (t.figuresChanged v b).Bounds := by
  unfold Tele.figuresChanged
  refine foldl_keeps_mem _ _ _ (fun t q _ ht => ?_) t h
  split
  · exact ht.quantityChanged v q
  · exact ht

theorem Tele.Bounds.repost {t : Tele} (h : t.Bounds) (v : TeleEnv) : (t.repost v).Bounds := by
  unfold Tele.repost
  refine foldl_keeps_mem _ _ _ (fun t k _ ht => ?_) t h
  split
  · unfold Tele.noticeKind
    split
    · exact ht
    · exact (ht.updateCond k _).postNotice v _
  · exact ht

theorem Tele.Bounds.allDue {t : Tele} (h : t.Bounds) (v : TeleEnv) : (t.allDue v).Bounds := by
  unfold Tele.allDue
  refine Tele.Bounds.pack (foldl_keeps_mem _ _ _ (fun t i hi ht => ?_) t h) v
  split
  · exact ht
  · exact ht.becomeDue (List.mem_range.mp hi)

theorem Tele.Bounds.minimumExpiry {t : Tele} (h : t.Bounds) (v : TeleEnv) (i : Nat) : (t.minimumExpiry v i).Bounds := by
  unfold Tele.minimumExpiry
  split
  · next hm =>
    have hi : i < 24 := by
      by_contra hl
      rw [Tele.policy_past h (Nat.le_of_not_lt hl)] at hm
      cases hm
    have hu := h.updatePolicy i (fun p => { p with minTimer := none }) (fun _ _ hp => hp)
    dsimp only
    refine Tele.Bounds.pack ?_ v
    split
    · exact hu.becomeDue hi
    · exact hu
  · exact h

theorem Tele.Bounds.maximumExpiry {t : Tele} (h : t.Bounds) (v : TeleEnv) (i : Nat) : (t.maximumExpiry v i).Bounds := by
  unfold Tele.maximumExpiry
  split
  · next hm =>
    have hi : i < 24 := by
      by_contra hl
      rw [Tele.policy_past h (Nat.le_of_not_lt hl)] at hm
      cases hm
    exact ((h.updatePolicy i (fun p => { p with maxTimer := none }) (fun _ _ hp => hp)).becomeDue hi).pack v
  · exact h

theorem Tele.Bounds.packHoldExpiry {t : Tele} (h : t.Bounds) (c : RoutineCell) : (t.packHoldExpiry c).Bounds := by
  cases c with
  | opened =>
    unfold Tele.packHoldExpiry
    dsimp only
    split
    · exact { h with }
    · exact h
  | runAhead =>
    have ha := h.ahead
    have hb : ((t.ahead.map (fun c : ReportCell =>
        if c.hold.isSome then { c with ready := true, hold := none } else c)).getD .empty).items.length ≤ 3 := by
      cases hx : t.ahead with
      | none => exact Nat.zero_le _
      | some c =>
        rw [hx] at ha
        rw [Option.map_some, Option.getD_some]
        split <;> exact ha
    exact { h with ahead := hb }

theorem Tele.Bounds.urgentSent {t : Tele} (h : t.Bounds) (v : TeleEnv) : (t.urgentSent v).Bounds :=
  Tele.Bounds.pack (t := { t with urgent := .empty }) { h with urgent := Nat.zero_le _ } v

theorem Tele.Bounds.openedSent {t : Tele} (h : t.Bounds) (v : TeleEnv) : (t.openedSent v).Bounds :=
  Tele.Bounds.pack (t := { t with opened := t.ahead.getD .empty, ahead := none })
    { h with opened := h.ahead, ahead := Nat.zero_le _ } v

theorem Tele.Bounds.pulseExpiry {t : Tele} (h : t.Bounds) : t.pulseExpiry.Bounds := by
  unfold Tele.pulseExpiry
  split
  · exact { h with }
  · exact h

theorem Tele.Bounds.policyWritten {t : Tele} (h : t.Bounds) (v : TeleEnv) (old : PolicySettings) {i : Nat} (hi : i < 24) :
    (t.policyWritten v old i).Bounds := by
  unfold Tele.policyWritten
  dsimp only
  split
  · have hu := (h.eraseDue i).updatePolicy i (fun _ => .powerOn) (fun hm => absurd hm (h.due.not_mem_erase))
    split
    · exact hu
    · exact (hu.becomeDue hi).pack v
  · split
    · exact h.updatePolicy i _ (fun _ _ hp => hp)
    · exact h

theorem Tele.Bounds.alertsWritten {t : Tele} (h : t.Bounds) (v : TeleEnv) (old : AlertMode) :
    (t.alertsWritten v old).Bounds := by
  unfold Tele.alertsWritten
  split
  · exact Tele.Bounds.deriveAlert (t := { t with pulse := none }) { h with } v
  · exact h.deriveAlert v
  · exact { h with }
  · exact h

end Sys2Proof.Machine
end

