-- ==== Sys2Proof/Laws/Moves.lean ====
section
/-!
SUPPORT. What the tellings of a settling can do (log 2). `Jobs.Moves dry e j0 j` says that `j` was reached from `j0` by changes
that leave alone what only a command itself writes (`Jobs.hull`), that keep a latched trip with its demands (and, when `dry` is
set, a part at which nothing can trip as it is: `Jobs.Calm`), and that touch the Condition and Report units only by raises and clears of the kinds inside the blocks, notices and changed quantities.
One lemma per operation that a telling can reach; `Jobs.Moves.settle` gathers them.
-/

namespace Sys2Proof.Machine

/-! ## What a settling leaves alone -/

/-- What only a command writes. -/
structure Hull where
  acts : List (Reported × Responsiveness × ActFault × Count × Nat × Commanded)
  flight : List Flight
  image : Option Settings
  complete : Bool
  word : Bool
  storing : Option Settings
  waiting : Bool
  asker : Option Asker
  counters : Counters
  suspects : Nat
  runs : Nat
  zones : Nat
  claims : Nat

/-- The hull of the records: refusals are counted by tellings too, and of four tables only the length is in it. -/
def Jobs.hull (j : Jobs) : Hull :=
  { acts := j.acts.map ActRuntime.view, flight := j.flight, image := j.store.image, complete := j.store.complete,
    word := j.store.word, storing := j.store.storing, waiting := j.store.waiting, asker := j.store.asker,
    counters := { j.counters with refusals11 := 0#32 }, suspects := j.suspects.length, runs := j.runs.length,
    zones := j.frost.zones.length, claims := j.power.claims.length }

/-- An event that brings the guard no level and no wet float. -/
def Event.calm : Event → Bool
  | .gaugeA .. => false
  | .gaugeB .. => false
  | .guardFloat (some true) => false
  | _ => true

/-- Nothing can trip the tower: no gauge has a level, the state is BLIND, the float is not wet, the latch is clear, and no
waiting telling brings a level or a wet float (R107). -/
structure Jobs.Calm (j : Jobs) : Prop where
  gaugeA : j.level.gaugeA = none
  gaugeB : j.level.gaugeB = none
  blind : j.level.fusion = .blind
  float : j.guard.float ≠ .wet
  latch : j.guard.latch = false
  work : ∀ ev ∈ j.work, ev.calm = true

/-- What a settling can only take away: a latched trip keeps its demands and its latch, and an operator hold or the blind
start timer that has ended does not come back. With `dry` set it leaves a calm part calm. -/
structure Jobs.Keeps (dry : Bool) (j j' : Jobs) : Prop where
  held : j.guard.Held → j'.guard.Held
  latch : j.guard.latch = true → j'.guard.latch = true
  blindStart : j.guard.blindStart = none → j'.guard.blindStart = none
  hold : ∀ i, (j.act i).hold = none → (j'.act i).hold = none
  calm : dry = true → j.Calm → j'.Calm

/-- A change that leaves the levels and the guard alone, and tells calm events alone. -/
theorem Jobs.Calm.told {j j' : Jobs} (hl : j'.level = j.level) (hg : j'.guard = j.guard)
    (hw : ∀ ev ∈ j'.work, ev ∈ j.work ∨ ev.calm = true) (h : j.Calm) : j'.Calm :=
  ⟨hl ▸ h.gaugeA, hl ▸ h.gaugeB, hl ▸ h.blind, hg ▸ h.float, hg ▸ h.latch, fun ev he => (hw ev he).elim (h.work ev) id⟩

/-- A change that leaves the levels, the guard record and the actuators alone, and tells calm events alone. -/
theorem Jobs.Keeps.same {dry : Bool} {j j' : Jobs} (hg : j'.guard = j.guard) (ha : j'.acts = j.acts)
    (hl : j'.level = j.level := by rfl) (hw : ∀ ev ∈ j'.work, ev ∈ j.work ∨ ev.calm = true := by exact fun _ h => .inl h) :
    Jobs.Keeps dry j j' :=
  ⟨hg ▸ id, hg ▸ id, hg ▸ id, fun i => by unfold Jobs.act; rw [ha]; exact id, fun _ => .told hl hg hw⟩

/-- The kinds that a telling can raise or clear; the others belong to commands alone. -/
def CondKind.inside : CondKind → Bool
  | .lineStalled => false
  | .loopNoise => false
  | .settingsLost => false
  | .clockUnset => false
  | .clockStale => false
  | .headStale => false
  | .actuatorLost => false
  | .gaugeSplit => true
  | .gaugeLost => true
  | .overflowNear => true
  | .overflowInhibit => true
  | .overflowTrip => true
  | .levelBlind => true
  | .freezeRisk => true
  | .reserveLow => true
  | .pumpFail => true
  | .fillShortfall => true
  | .powerShort => true
  | .queueFull => true
  | .actuatorDiscord => true
  | .heaterFail => true
  | .pumpFault => true

/-- Reached by what tellings do. -/
inductive Jobs.Moves (dry : Bool) (e : Env) (j0 : Jobs) : Jobs → Prop
  | refl : Jobs.Moves dry e j0 j0
  | quiet {j j' : Jobs} : Jobs.Moves dry e j0 j → j'.hull = j.hull → j'.tele = j.tele → Jobs.Keeps dry j j' → Jobs.Moves dry e j0 j'
  | raise {j : Jobs} (k : CondKind) (hk : k.inside = true) : Jobs.Moves dry e j0 j → Jobs.Moves dry e j0 (j.raise e k)
  | clear {j : Jobs} (k : CondKind) (hk : k.inside = true) : Jobs.Moves dry e j0 j → Jobs.Moves dry e j0 (j.clear e k)
  | notice {j : Jobs} (n : Notice) : Jobs.Moves dry e j0 j → Jobs.Moves dry e j0 (j.notice e n)
  | quantity {j : Jobs} (q : Nat) : Jobs.Moves dry e j0 j → Jobs.Moves dry e j0 (j.tele' (fun v t => t.quantityChanged v q) e)
  | figures {j : Jobs} (b : List (Option Int)) :
      Jobs.Moves dry e j0 j → Jobs.Moves dry e j0 (j.tele' (fun v t => t.figuresChanged v b) e)
  | repost {j : Jobs} : Jobs.Moves dry e j0 j → Jobs.Moves dry e j0 (j.tele' (fun v t => t.repost v) e)

variable {dry : Bool} {e : Env} {j0 j : Jobs}

theorem Jobs.Moves.trans {j' : Jobs} (h : Jobs.Moves dry e j0 j) (h' : Jobs.Moves dry e j j') : Jobs.Moves dry e j0 j' := by
  induction h' with
  | refl => exact h
  | quiet _ a b c ih => exact ih.quiet a b c
  | raise k hk _ ih => exact ih.raise k hk
  | clear k hk _ ih => exact ih.clear k hk
  | notice n _ ih => exact ih.notice n
  | quantity q _ ih => exact ih.quantity q
  | figures b _ ih => exact ih.figures b
  | repost _ ih => exact ih.repost

theorem Jobs.Keeps.trans {a a' c : Jobs} (h : Jobs.Keeps dry a a') (h' : Jobs.Keeps dry a' c) : Jobs.Keeps dry a c :=
  ⟨h'.held ∘ h.held, h'.latch ∘ h.latch, h'.blindStart ∘ h.blindStart, fun i => h'.hold i ∘ h.hold i,
    fun hb => h'.calm hb ∘ h.calm hb⟩

theorem Jobs.keeps_tele' (f : TeleEnv → Tele → Tele) (e : Env) (j : Jobs) : Jobs.Keeps dry j (j.tele' f e) :=
  .same (Jobs.tele'_guard ..) (Jobs.tele'_acts ..)

theorem Jobs.Moves.keeps (h : Jobs.Moves dry e j0 j) : Jobs.Keeps dry j0 j := by
  induction h with
  | refl => exact .same rfl rfl
  | quiet _ _ _ c ih => exact ih.trans c
  | raise _ _ _ ih => exact ih.trans (Jobs.keeps_tele' ..)
  | clear _ _ _ ih => exact ih.trans (Jobs.keeps_tele' ..)
  | notice _ _ ih => exact ih.trans (Jobs.keeps_tele' ..)
  | quantity _ _ ih => exact ih.trans (Jobs.keeps_tele' ..)
  | figures _ _ ih => exact ih.trans (Jobs.keeps_tele' ..)
  | repost _ ih => exact ih.trans (Jobs.keeps_tele' ..)

/-- A fold of changes. -/
theorem Jobs.Moves.foldl {β : Type} (f : Jobs → β → Jobs) (l : List β)
    (hf : ∀ {j : Jobs} (b : β), Jobs.Moves dry e j0 j → Jobs.Moves dry e j0 (f j b)) (h : Jobs.Moves dry e j0 j) :
    Jobs.Moves dry e j0 (l.foldl f j) := by
  induction l generalizing j with
  | nil => exact h
  | cons b l ih => exact ih (hf b h)

/-! ## Primitive updates -/

theorem Jobs.hull_updateAct (i : Nat) (f : ActRuntime → ActRuntime) (hf : ∀ a, (f a).view = a.view) (j : Jobs) :
    (j.updateAct i f).hull = j.hull := by
  simp only [Jobs.hull, Jobs.updateAct_acts, updateAt_map ActRuntime.view f i j.acts hf]; rfl

theorem Jobs.act_updateAct (i k : Nat) (f : ActRuntime → ActRuntime) (j : Jobs) :
    (j.updateAct i f).act k = j.act k ∨ (j.updateAct i f).act k = f (j.act k) := by
  by_cases e : k = i
  · subst e
    by_cases hl : k < j.acts.length
    · exact .inr (updateAt_getD_self f _ _ _ hl)
    · refine .inl ?_
      unfold Jobs.act
      rw [List.getD_eq_default _ _ (Nat.le_of_not_lt hl), List.getD_eq_default]
      rw [Jobs.updateAct_acts, updateAt_length]
      exact Nat.le_of_not_lt hl
  · exact .inl (updateAt_getD_ne f _ _ _ _ e)

theorem Jobs.Moves.updateAct (i : Nat) (f : ActRuntime → ActRuntime) (hf : ∀ a, (f a).view = a.view)
    (hh : ∀ a : ActRuntime, a.hold = none → (f a).hold = none)
    (h : Jobs.Moves dry e j0 j) : Jobs.Moves dry e j0 (j.updateAct i f) :=
  h.quiet (j.hull_updateAct i f hf) rfl ⟨id, id, id, fun k hk => by
    rcases j.act_updateAct i k f with hx | hx
    · rw [hx]; exact hk
    · rw [hx]; exact hh _ hk, fun _ => .told rfl rfl fun _ => .inl⟩

theorem Jobs.Moves.updateRun (n : Nat) (f : Run → Run) (h : Jobs.Moves dry e j0 j) : Jobs.Moves dry e j0 (j.updateRun n f) := by
  unfold Jobs.updateRun
  split
  · exact h
  · exact h.quiet (by unfold Jobs.hull; simp only [updateAt_length]) rfl (.same rfl rfl)

theorem Jobs.Moves.updateZone (z : Nat) (f : Zone → Zone) (h : Jobs.Moves dry e j0 j) : Jobs.Moves dry e j0 (j.updateZone z f) :=
  h.quiet (by unfold Jobs.hull Jobs.updateZone; simp only [updateAt_length]) rfl (.same rfl rfl)

theorem Jobs.Moves.updateClaim (c : Nat) (f : Claim → Claim) (h : Jobs.Moves dry e j0 j) :
    Jobs.Moves dry e j0 (j.updateClaim c f) :=
  h.quiet (by unfold Jobs.hull Jobs.updateClaim; simp only [updateAt_length]) rfl (.same rfl rfl)

theorem Jobs.Moves.plan (f : FillPlan → FillPlan) (h : Jobs.Moves dry e j0 j) : Jobs.Moves dry e j0 (j.plan f) :=
  h.quiet rfl rfl (.same rfl rfl)

theorem Jobs.Moves.frosted (f : Frost → Frost) (hf : ∀ x, (f x).zones = x.zones) (h : Jobs.Moves dry e j0 j) :
    Jobs.Moves dry e j0 (j.frosted f) :=
  h.quiet (by unfold Jobs.hull Jobs.frosted; simp only [hf]) rfl (.same rfl rfl)

theorem mem_bringFront {α : Type} (k : Nat) (xs : List α) {x : α} (h : x ∈ bringFront k xs) : x ∈ xs := by
  induction k generalizing xs with
  | zero => cases xs <;> exact h
  | succ k ih =>
    cases xs with
    | nil => exact h
    | cons y ys =>
      unfold bringFront at h
      split at h
      · next he => rw [List.mem_singleton.mp h]; exact List.mem_cons_self
      · next z zs he =>
        have hz := fun hx : x ∈ z :: zs => ih ys (he ▸ hx)
        rcases List.mem_cons.mp h with rfl | h'
        · exact List.mem_cons_of_mem _ (hz List.mem_cons_self)
        · rcases List.mem_cons.mp h' with rfl | h''
          · exact List.mem_cons_self
          · exact List.mem_cons_of_mem _ (hz (List.mem_cons_of_mem _ h''))

/-- An order of a list holds nothing else. -/
theorem mem_ordered {α : Type} (fuel k : Nat) (xs : List α) {x : α} (h : x ∈ ordered fuel k xs) : x ∈ xs := by
  induction fuel generalizing k xs with
  | zero => exact h
  | succ fuel ih =>
    unfold ordered at h
    split at h
    · cases h
    · next y ys he =>
      refine mem_bringFront (k % xs.length) xs ?_
      rw [he]
      rcases List.mem_cons.mp h with rfl | h'
      · exact List.mem_cons_self
      · exact List.mem_cons_of_mem _ (ih _ _ h')

theorem Jobs.Moves.post (ev : Event) (h : Jobs.Moves dry e j0 j) (hc : ev.calm = true := by rfl) :
    Jobs.Moves dry e j0 (j.post ev) :=
  h.quiet rfl rfl (.same rfl rfl rfl fun x hx => by
    rcases List.mem_append.mp hx with hx | hx
    · exact .inl hx
    · exact .inr (List.mem_singleton.mp hx ▸ hc))

theorem Jobs.Moves.tell (evs : List Event) (h : Jobs.Moves dry e j0 j)
    (hc : ∀ x ∈ evs, x.calm = true := by intro x hx; fin_cases hx <;> rfl) : Jobs.Moves dry e j0 (j.tell evs) :=
  h.quiet rfl rfl (.same rfl rfl rfl fun x hx => by
    rcases List.mem_append.mp hx with hx | hx
    · exact .inl hx
    · exact .inr (hc x (mem_ordered _ _ _ hx)))

theorem Jobs.Moves.tellFirst (evs : List Event) (h : Jobs.Moves dry e j0 j)
    (hc : ∀ x ∈ evs, x.calm = true := by intro x hx; fin_cases hx <;> rfl) : Jobs.Moves dry e j0 (j.tellFirst evs) :=
  h.quiet rfl rfl (.same rfl rfl rfl fun x hx => by
    rcases List.mem_append.mp hx with hx | hx
    · exact .inr (hc x (mem_ordered _ _ _ hx))
    · exact .inl hx)

theorem Jobs.Moves.startPass (h : Jobs.Moves dry e j0 j) : Jobs.Moves dry e j0 j.startPass :=
  h.quiet rfl rfl (.same rfl rfl rfl fun x hx => by
    rcases List.mem_cons.mp hx with rfl | hx
    · exact .inr rfl
    · exact .inl hx)

theorem Jobs.Moves.guarding (f : GuardRecord → GuardRecord) (hf : ∀ g : GuardRecord, g.Held → (f g).Held)
    (hl : ∀ g : GuardRecord, g.latch = true → (f g).latch = true)
    (hb : ∀ g : GuardRecord, g.blindStart = none → (f g).blindStart = none)
    (hc : dry = true → ∀ g : GuardRecord, (g.float ≠ .wet → (f g).float ≠ .wet) ∧ (f g).latch = g.latch)
    (h : Jobs.Moves dry e j0 j) : Jobs.Moves dry e j0 (j.guarding f) :=
  h.quiet rfl rfl ⟨hf _, hl _, hb _, fun _ => id, fun hd h =>
    ⟨h.gaugeA, h.gaugeB, h.blind, (hc hd _).1 h.float, (hc hd _).2.trans h.latch, h.work⟩⟩

theorem Jobs.Moves.queue (q : List QueueItem) (h : Jobs.Moves dry e j0 j) : Jobs.Moves dry e j0 { j with queue := q } :=
  h.quiet rfl rfl (.same rfl rfl)

theorem Jobs.Moves.keep (k : CondKind) (hk : k.inside = true) (b : Bool) (h : Jobs.Moves dry e j0 j) :
    Jobs.Moves dry e j0 (j.keep e k b) := by
  unfold Jobs.keep
  split
  · exact h.raise k hk
  · exact h.clear k hk

theorem Jobs.Moves.countRefusal (h : Jobs.Moves dry e j0 j) : Jobs.Moves dry e j0 j.countRefusal := h.quiet rfl rfl (.same rfl rfl)

theorem Store.ask_hull (latch : Bool) (s : Store) :
    (s.ask latch).image = s.image ∧ (s.ask latch).complete = s.complete ∧ (s.ask latch).word = s.word
      ∧ (s.ask latch).storing = s.storing ∧ (s.ask latch).waiting = s.waiting ∧ (s.ask latch).asker = s.asker := by
  unfold Store.ask
  split
  · exact ⟨rfl, rfl, rfl, rfl, rfl, rfl⟩
  · exact ⟨rfl, rfl, rfl, rfl, rfl, rfl⟩

theorem Jobs.hull_askWord (j : Jobs) : j.askWord.hull = j.hull := by
  obtain ⟨h1, h2, h3, h4, h5, h6⟩ := j.store.ask_hull j.guard.latch
  simp only [Jobs.hull, Jobs.askWord, Jobs.stored, h1, h2, h3, h4, h5, h6]

theorem Jobs.Moves.askWord (h : Jobs.Moves dry e j0 j) : Jobs.Moves dry e j0 j.askWord := h.quiet j.hull_askWord rfl (.same rfl rfl)

end Sys2Proof.Machine
end

