-- ==== Sys2Proof/Laws/MovesActuator.lean ====
section
/-!
SUPPORT. What the Actuator unit's operations move, as far as a telling reaches them (spec/04).
-/

namespace Sys2Proof.Machine

variable {dry : Bool} {e : Env} {j0 j : Jobs}

theorem Jobs.Moves.tellOrigin (o : Origin) (i : Nat) (a : Action) (r : CmdResult) (h : Jobs.Moves dry e j0 j) :
    Jobs.Moves dry e j0 (j.tellOrigin e o i a r) := by
  cases o
  case start =>
    unfold Jobs.tellOrigin
    dsimp only
    split
    · exact h
    · exact h.post _
  case frostLeft =>
    unfold Jobs.tellOrigin
    dsimp only
    split
    · exact h.post _
    · exact h
  all_goals exact h.post _

theorem Jobs.Moves.cancel (o : Origin) (i : Nat) (a : Action) (h : Jobs.Moves dry e j0 j) :
    Jobs.Moves dry e j0 (j.cancel e o i a) := by
  unfold Jobs.cancel
  split
  · exact h.tellOrigin ..
  · exact (h.notice _).tellOrigin ..

theorem Jobs.Moves.refuse (o : Origin) (i : Nat) (a : Action) (r : Reason) (h : Jobs.Moves dry e j0 j) :
    Jobs.Moves dry e j0 (j.refuse e o i a r) := (h.countRefusal.notice _).tellOrigin ..

theorem Jobs.Moves.withdrawOperator (i : Nat) (h : Jobs.Moves dry e j0 j) : Jobs.Moves dry e j0 (j.withdrawOperator e i) := by
  unfold Jobs.withdrawOperator
  split
  · exact h
  · split
    · exact (h.updateClaim _ _).startPass
    · exact h

theorem Jobs.Moves.startRest (i : Nat) (h : Jobs.Moves dry e j0 j) : Jobs.Moves dry e j0 (j.startRest e i) := by
  unfold Jobs.startRest
  split
  · exact h
  · exact (h.updateAct _ _ (by intro; rfl) (by intro _ h; exact h)).startPass

theorem Jobs.Moves.afterQueued (i : Nat) (a : Action) (h : Jobs.Moves dry e j0 j) :
    Jobs.Moves dry e j0 (j.afterQueued e i a) := by
  unfold Jobs.afterQueued
  split
  · exact (h.startRest i).withdrawOperator i
  · exact h

theorem Jobs.Moves.spaceTest (h : Jobs.Moves dry e j0 j) : Jobs.Moves dry e j0 (j.spaceTest e) := by
  unfold Jobs.spaceTest
  split
  · exact h.clear _ rfl
  · exact h

theorem Jobs.Moves.fenceTest (h : Jobs.Moves dry e j0 j) : Jobs.Moves dry e j0 (j.fenceTest e) := by
  unfold Jobs.fenceTest
  split
  · exact (h.queue _).spaceTest
  · exact h

theorem Jobs.Moves.restAfter (x : QueueItem) (h : Jobs.Moves dry e j0 j) : Jobs.Moves dry e j0 (j.restAfter e x) := by
  unfold Jobs.restAfter
  split
  · split
    · exact (h.updateAct _ _ (by intro; rfl) (by intro _ h; exact h)).tell _
    · exact h
  · exact h

theorem Jobs.Moves.removed (x : QueueItem) (h : Jobs.Moves dry e j0 j) : Jobs.Moves dry e j0 (j.removed e x) := by
  cases x with
  | cmd i a o => exact (h.cancel o i a).restAfter _
  | fence g => exact h

theorem Jobs.Moves.itemsLeft (h : Jobs.Moves dry e j0 j) : Jobs.Moves dry e j0 (j.itemsLeft e) := h.fenceTest.spaceTest

theorem Jobs.Moves.evictTail (h : Jobs.Moves dry e j0 j) : Jobs.Moves dry e j0 (j.evictTail e) := by
  unfold Jobs.evictTail
  split
  · exact h
  · split
    · exact h
    · exact ((h.queue _).removed _).itemsLeft

theorem Jobs.Moves.evict (n : Nat) (h : Jobs.Moves dry e j0 j) : Jobs.Moves dry e j0 (Jobs.evict e n j) := by
  induction n generalizing j with
  | zero => exact h
  | succ n ih =>
    unfold Jobs.evict
    split
    · exact h
    · exact ih h.evictTail

theorem Jobs.Moves.join (x : QueueItem) (h : Jobs.Moves dry e j0 j) : Jobs.Moves dry e j0 (j.join x).1 := by
  unfold Jobs.join
  split
  · exact h.queue _
  · exact h

/-- The two outcomes of an operation that says whether it went through. -/
theorem Jobs.Moves.of_eq {α : Type} {p : Jobs × α} {j' : Jobs} {b : α} (hp : p = (j', b)) (h : Jobs.Moves dry e j0 p.1) :
    Jobs.Moves dry e j0 j' := by subst hp; exact h

theorem Jobs.Moves.place (o : Origin) (i : Nat) (a : Action) (h : Jobs.Moves dry e j0 j) :
    Jobs.Moves dry e j0 (j.place e o i a).1 := by
  unfold Jobs.place
  split
  · split
    · exact h.tellOrigin ..
    · split
      · split
        · next hj => exact ((h.join _).of_eq hj).join _
        · next hj => exact (h.join _).of_eq hj
      · dsimp only
        refine Jobs.Moves.restAfter _ ?_
        split
        · exact (h.queue _).tellOrigin ..
        · split
          · exact h.queue _
          · exact (h.queue _).cancel ..
  · exact h.join _

theorem Jobs.Moves.enqueue (o : Origin) (i : Nat) (a : Action) (h : Jobs.Moves dry e j0 j) :
    Jobs.Moves dry e j0 (j.enqueue e o i a).1 := by
  unfold Jobs.enqueue
  split
  · next hp => exact ((h.place ..).of_eq hp).afterQueued ..
  · next hp => exact (h.place ..).of_eq hp

theorem Jobs.Moves.enqueueEvicting (i : Nat) (a : Action) (n : Nat) (h : Jobs.Moves dry e j0 j) :
    Jobs.Moves dry e j0 (Jobs.enqueueEvicting e i a n j).1 := by
  induction n generalizing j with
  | zero => exact h.enqueue ..
  | succ n ih =>
    unfold Jobs.enqueueEvicting
    split
    · next hp => exact (h.enqueue ..).of_eq hp
    · exact ih h.evictTail

theorem Jobs.Moves.refuseFull (o : Origin) (i : Nat) (a : Action) (h : Jobs.Moves dry e j0 j) :
    Jobs.Moves dry e j0 (j.refuseFull e o i a) := (h.raise _ rfl).refuse ..

theorem Jobs.Moves.take (o : Origin) (i : Nat) (a : Action) (h : Jobs.Moves dry e j0 j) :
    Jobs.Moves dry e j0 (j.take e o i a).1 := by
  unfold Jobs.take
  split
  · exact h.tellOrigin ..
  · split
    · exact (h.updateAct _ _ (by intro; rfl) (by intro _ h; exact h)).tellOrigin ..
    · split
      · exact h.refuse ..
      · have hq : Jobs.Moves dry e j0 (if o == .allotment then Jobs.enqueueEvicting e i a Config.queueMax j
            else j.enqueue e o i a).1 := by
          split
          · exact h.enqueueEvicting ..
          · exact h.enqueue ..
        split
        · next hp => exact hq.of_eq hp
        · next hp => exact (hq.of_eq hp).refuseFull ..

theorem Jobs.Moves.refuseRest (o : Origin) (l : List Ask) (h : Jobs.Moves dry e j0 j) :
    Jobs.Moves dry e j0 (Jobs.refuseRest e o l j) := by
  induction l generalizing j with
  | nil => exact h
  | cons x l ih =>
    cases x with
    | cmd i a => exact ih (h.refuse ..)
    | fence => exact ih h

theorem Jobs.Moves.request (o : Origin) (l : List Ask) (h : Jobs.Moves dry e j0 j) :
    Jobs.Moves dry e j0 (Jobs.request e o l j) := by
  induction l generalizing j with
  | nil => exact h
  | cons x l ih =>
    cases x with
    | cmd i a =>
      unfold Jobs.request
      split
      · next hp => exact ((h.take ..).of_eq hp).refuseRest ..
      · next hp => exact ih ((h.take ..).of_eq hp)
    | fence =>
      unfold Jobs.request
      split
      · next hp => exact ih ((h.join ..).of_eq hp).fenceTest
      · next hp => exact (((h.join ..).of_eq hp).raise _ rfl).refuseRest ..

theorem Jobs.Moves.tellHold (i : Nat) (b : Bool) (h : Jobs.Moves dry e j0 j) : Jobs.Moves dry e j0 (j.tellHold e i b) := by
  unfold Jobs.tellHold
  split
  · exact h.post _
  · exact h.post _
  · exact h
  · exact h.post _

theorem Jobs.Moves.endHold (c : HoldEnd) (i : Nat) (h : Jobs.Moves dry e j0 j) : Jobs.Moves dry e j0 (j.endHold e c i) := by
  unfold Jobs.endHold
  split
  · exact h
  · dsimp only
    have hj := ((h.updateAct i (fun a => { a with hold := none, parked := none }) (fun _ => rfl)
      (fun _ _ => rfl)).notice
      (.holdEnded i c.code)).tellHold i false
    split
    · exact hj
    · split
      · exact hj.cancel ..
      · exact hj.take ..

theorem Jobs.Moves.clearFor (i : Nat) (h : Jobs.Moves dry e j0 j) : Jobs.Moves dry e j0 (j.clearFor e i) := by
  unfold Jobs.clearFor
  dsimp only
  have hf := Jobs.Moves.foldl (fun j x => if x.isGuard then j else j.removed e x)
    (j.queue.filter (fun x => x.isFor i))
    (fun x hx => by split; exacts [hx, hx.removed _]) (h.queue (j.queue.filter (fun x => !x.isFor i)))
  refine Jobs.Moves.endHold _ _ ?_
  split
  · exact hf
  · exact hf.itemsLeft

theorem Jobs.Moves.groupQueued (l : List Ask) (h : Jobs.Moves dry e j0 j) : Jobs.Moves dry e j0 (j.groupQueued e l) :=
  Jobs.Moves.foldl _ _ (fun x hx => by cases x; exacts [hx.afterQueued .., hx]) h

theorem Jobs.Moves.clearForAll (l : List Ask) (h : Jobs.Moves dry e j0 j) : Jobs.Moves dry e j0 (j.clearForAll e l) :=
  Jobs.Moves.foldl _ _ (fun x hx => by cases x; exacts [hx.clearFor _, hx]) h

theorem Jobs.Moves.guardGroup (l : List Ask) (h : Jobs.Moves dry e j0 j) : Jobs.Moves dry e j0 (j.guardGroup e l) := by
  unfold Jobs.guardGroup
  split
  · exact h
  · exact ((((h.clearForAll l).queue _).evict _).groupQueued l).itemsLeft

theorem Jobs.Moves.discordTest (h : Jobs.Moves dry e j0 j) : Jobs.Moves dry e j0 (j.discordTest e) := by
  unfold Jobs.discordTest
  dsimp only
  have hj := Jobs.Moves.foldl (e := e) (j0 := j0) (fun (j : Jobs) (i : Nat) =>
      if (j.act i).discord && agrees (j.commanded i) (j.act i).reported then
        j.updateAct i (fun a => { a with discord := false }) else j) (List.range Config.actuatorCount)
      (fun i hi => by
        split
        · exact hi.updateAct _ _ (by intro; rfl) (fun _ => id)
        · exact hi) h
  split
  · exact hj
  · exact hj.clear _ rfl

end Sys2Proof.Machine
end

