-- ==== Sys2Proof/Laws/MovesBlocks.lean ====
section
/-!
SUPPORT. What the operations of the Level unit, the Power allotment, the Fill controller, the Overflow guard and the Frost
unit move, as far as a telling reaches them, and with them what a settling moves.
-/

namespace Sys2Proof.Machine

variable {dry : Bool} {e : Env} {j0 j : Jobs}

/-! ## Level unit (spec/03) -/

theorem Jobs.Moves.gaugeLostTest (was : Fusion) (h : Jobs.Moves dry e j0 j) : Jobs.Moves dry e j0 (j.gaugeLostTest e was) := by
  unfold Jobs.gaugeLostTest
  dsimp only
  split
  · split
    · exact h.raise _ rfl
    · exact h
  · split
    · exact h.raise _ rfl
    · exact h
  · exact h.clear _ rfl
  · exact h.clear _ rfl
  · exact h

theorem Jobs.Moves.gaugeSplitTest (was : Fusion) (h : Jobs.Moves dry e j0 j) : Jobs.Moves dry e j0 (j.gaugeSplitTest e was) := by
  unfold Jobs.gaugeSplitTest
  split
  · exact h.clear _ rfl
  · exact h

theorem Jobs.Moves.recompute (a b : Option GaugeLevel) (h : Jobs.Moves dry e j0 j)
    (hc : dry = true → j.Calm → a = none ∧ b = none) : Jobs.Moves dry e j0 (j.recompute e a b) := by
  have hl : ∀ r : LevelRecord, (a = none ∧ b = none → r.gaugeA = none ∧ r.gaugeB = none ∧ r.fusion = .blind) →
      Jobs.Moves dry e j0 { j with level := r } := fun r hr =>
    h.quiet rfl rfl ⟨id, id, id, fun _ => id, fun hd hj =>
      have hn := hr (hc hd hj)
      ⟨hn.1, hn.2.1, hn.2.2, hj.float, hj.latch, hj.work⟩⟩
  unfold Jobs.recompute
  dsimp only
  split
  · exact ((hl _ (by rintro ⟨rfl, rfl⟩; exact ⟨rfl, rfl, rfl⟩)).gaugeSplitTest _).gaugeLostTest _
  · exact (((hl _ (by rintro ⟨rfl, rfl⟩; exact ⟨rfl, rfl, rfl⟩)).gaugeSplitTest _).gaugeLostTest _).tellFirst _

/-! ## Power allotment (spec/08) -/

theorem Jobs.Moves.refreshPump (n : Nat) (h : Jobs.Moves dry e j0 j) : Jobs.Moves dry e j0 (j.refreshPump e n) := h.updateClaim ..

theorem Jobs.Moves.pumpPosted (n : Nat) (h : Jobs.Moves dry e j0 j) : Jobs.Moves dry e j0 (j.pumpPosted e n) := by
  unfold Jobs.pumpPosted
  split
  · exact h
  · exact (h.refreshPump n).startPass

theorem Jobs.Moves.postFill (n : Nat) (c : ClaimClass) (u : Nat) (h : Jobs.Moves dry e j0 j) :
    Jobs.Moves dry e j0 (j.postFill e n c u) := (h.updateClaim ..).pumpPosted n

theorem Jobs.Moves.postZone (z : Nat) (c : ClaimClass) (u : Nat) (h : Jobs.Moves dry e j0 j) :
    Jobs.Moves dry e j0 (j.postZone z c u) := by
  unfold Jobs.postZone
  dsimp only
  split
  · exact h
  · exact (h.updateClaim ..).startPass

theorem Jobs.Moves.stopOverdrawn (n : Nat) (h : Jobs.Moves dry e j0 j) : Jobs.Moves dry e j0 (j.stopOverdrawn e n) := by
  unfold Jobs.stopOverdrawn
  split
  · exact h
  · exact h.request ..

theorem grantTurn_length (s : Settings) (takes : Claim → Bool) (w : List Claim × Nat) (c : Nat) :
    (grantTurn s takes w c).1.length = w.1.length := by
  unfold grantTurn
  dsimp only
  split
  · exact updateAt_length _ _ _
  · rfl

/-- The walk changes no more than the granted units of the claims. -/
theorem walk_length (s : Settings) (cap : Nat) (claims : List Claim) : (walk s cap claims).1.length = claims.length := by
  have turns : ∀ (takes : Claim → Bool) (l : List Nat) (w : List Claim × Nat),
      (l.foldl (grantTurn s takes) w).1.length = w.1.length := by
    intro takes l
    induction l with
    | nil => intro w; rfl
    | cons c l ih => intro w; exact (ih _).trans (grantTurn_length s takes w c)
  have steps : ∀ (l : List ((Claim → Bool) × List Nat)) (w : List Claim × Nat),
      (l.foldl (fun w step => step.2.foldl (grantTurn s step.1) w) w).1.length = w.1.length := by
    intro l
    induction l with
    | nil => intro w; rfl
    | cons c l ih => intro w; exact (ih _).trans (turns ..)
  unfold walk
  rw [steps]
  exact List.length_map _

theorem Jobs.Moves.grantAll (h : Jobs.Moves dry e j0 j) : Jobs.Moves dry e j0 (j.grantAll e) := by
  have h1 := (h.refreshPump 1).refreshPump 2
  unfold Jobs.grantAll
  exact h1.quiet (by unfold Jobs.hull; simp only [walk_length]) rfl (.same rfl rfl)

theorem Jobs.Moves.tellTotal (n : Nat) (h : Jobs.Moves dry e j0 j) : Jobs.Moves dry e j0 (j.tellTotal e n) := by
  unfold Jobs.tellTotal
  split
  · exact h
  · exact h.quantity _

theorem grantTold_calm (before after : List Claim) : ∀ ev ∈ grantTold before after, ev.calm = true := by
  intro ev h
  rcases List.mem_append.mp h with h | h
  · split at h
    · rw [List.mem_singleton.mp h]; rfl
    · cases h
  · obtain ⟨z, -, rfl⟩ := List.mem_map.mp h
    rfl

theorem Jobs.Moves.pass (h : Jobs.Moves dry e j0 j) : Jobs.Moves dry e j0 (j.pass e) :=
  ((((h.grantAll.stopOverdrawn 1).stopOverdrawn 2).tell _ (grantTold_calm _ _)).tellTotal _).keep _ rfl _

theorem Jobs.Moves.deriveCap (h : Jobs.Moves dry e j0 j) : Jobs.Moves dry e j0 (j.deriveCap e) := by
  unfold Jobs.deriveCap
  split
  · exact h
  · exact Jobs.Moves.startPass (h.quiet rfl rfl (.same rfl rfl))

theorem Jobs.Moves.followIncumbent (n : Nat) (h : Jobs.Moves dry e j0 j) : Jobs.Moves dry e j0 (j.followIncumbent e n) := by
  unfold Jobs.followIncumbent
  dsimp only
  split <;> split
  · exact h
  · exact (h.updateClaim ..).startPass
  · exact h
  · exact (h.updateClaim ..).startPass

theorem Jobs.Moves.incumbents (h : Jobs.Moves dry e j0 j) : Jobs.Moves dry e j0 (j.incumbents e) :=
  (h.followIncumbent 1).followIncumbent 2

theorem Jobs.Moves.powerResult (i : Nat) (r : CmdResult) (h : Jobs.Moves dry e j0 j) :
    Jobs.Moves dry e j0 (j.powerResult e i r) := by
  unfold Jobs.powerResult
  split
  · split
    · exact h
    · split
      · exact h.request ..
      · exact h
  · exact h

theorem Jobs.Moves.operatorResult (i : Nat) (a : Action) (r : CmdResult) (h : Jobs.Moves dry e j0 j) :
    Jobs.Moves dry e j0 (j.operatorResult e i a r) := by
  unfold Jobs.operatorResult
  split
  · exact h.withdrawOperator i
  · exact h

/-! ## Fill controller (spec/05) -/

theorem Jobs.Moves.startRun (n : Nat) (h : Jobs.Moves dry e j0 j) : Jobs.Moves dry e j0 (j.startRun e n) := by
  unfold Jobs.startRun
  split
  · exact h
  · exact ((h.updateRun ..).plan _).request ..

theorem Jobs.Moves.endRun (n : Nat) (h : Jobs.Moves dry e j0 j) : Jobs.Moves dry e j0 (j.endRun e n) := by
  unfold Jobs.endRun
  dsimp only
  split
  · exact h.updateRun ..
  · exact ((h.updateRun ..).plan _).request ..

theorem Jobs.Moves.endRunning (h : Jobs.Moves dry e j0 j) : Jobs.Moves dry e j0 (j.endRunning e) := by
  unfold Jobs.endRunning
  split
  · exact h
  · exact h.endRun _

theorem Jobs.Moves.fillCommanded (h : Jobs.Moves dry e j0 j) : Jobs.Moves dry e j0 (j.fillCommanded e) := by
  unfold Jobs.fillCommanded
  split
  · exact h
  · split
    · exact h
    · split
      · exact h.endRun _
      · exact h

theorem Jobs.Moves.windowEnd (h : Jobs.Moves dry e j0 j) : Jobs.Moves dry e j0 (j.windowEnd e) := by
  unfold Jobs.windowEnd
  refine Jobs.Moves.plan _ ?_
  split
  · exact (h.plan _).raise _ rfl
  · exact h

theorem Jobs.Moves.windowStart (h : Jobs.Moves dry e j0 j) : Jobs.Moves dry e j0 (j.windowStart e) := by
  unfold Jobs.windowStart
  dsimp only
  split
  · exact ((h.plan _).plan _).clear _ rfl
  · exact h.plan _

theorem Jobs.Moves.followWindow (h : Jobs.Moves dry e j0 j) : Jobs.Moves dry e j0 (j.followWindow e) := by
  unfold Jobs.followWindow
  split
  · exact h
  · exact h.windowEnd.windowStart

theorem Jobs.Moves.figure (h : Jobs.Moves dry e j0 j) : Jobs.Moves dry e j0 (j.figure e) := by
  unfold Jobs.figure
  exact h.plan _

theorem Jobs.Moves.markRow (c : Choice) (h : Jobs.Moves dry e j0 j) : Jobs.Moves dry e j0 (j.markRow e c) := by
  unfold Jobs.markRow
  split
  · exact h.plan _
  · exact h.plan _
  · exact h.plan _
  · exact h

theorem Jobs.Moves.postClaims (h : Jobs.Moves dry e j0 j) : Jobs.Moves dry e j0 (j.postClaims e) := by
  have hp : ∀ {l : Option Nat} (n : Nat) {k : Jobs}, Jobs.Moves dry e j0 k →
      Jobs.Moves dry e j0 (if l = some n ∧ j.fill.mode.claim ≠ .none then
        k.postFill e n j.fill.mode.claim (match e.set.pump n with | none => 0 | some i => (e.set.act i).rated)
        else k.postFill e n .none 0) := by
    intro l n k hk
    split
    · exact hk.postFill ..
    · exact hk.postFill ..
  unfold Jobs.postClaims
  dsimp only
  split
  · exact hp 2 (hp 1 h)
  · exact hp 1 (hp 2 h)

theorem Jobs.Moves.startTest (h : Jobs.Moves dry e j0 j) : Jobs.Moves dry e j0 (j.startTest e) := by
  unfold Jobs.startTest
  split
  · exact h
  · split
    · exact h
    · split
      · exact (h.plan _).startRun _
      · exact h

theorem Jobs.Moves.askOwed (h : Jobs.Moves dry e j0 j) : Jobs.Moves dry e j0 (j.askOwed e) := by
  unfold Jobs.askOwed
  dsimp only
  split
  · exact h.plan _
  · exact Jobs.Moves.foldl _ _ (fun _ hx => hx.request ..) (h.plan _)

theorem Jobs.Moves.pumpFailTest (c : Choice) (h : Jobs.Moves dry e j0 j) : Jobs.Moves dry e j0 (j.pumpFailTest e c) := h.keep _ rfl _

theorem Jobs.Moves.fillEvaluate (b : Bool) (h : Jobs.Moves dry e j0 j) : Jobs.Moves dry e j0 (j.fillEvaluate e b) := by
  unfold Jobs.fillEvaluate
  refine Jobs.Moves.keep _ rfl _ (Jobs.Moves.pumpFailTest _ ?_)
  have h1 := h.fillCommanded.followWindow.figure
  have h2 := h1.markRow (((j.fillCommanded e).followWindow e).figure e |>.chooseRow e)
  have h3 : ∀ {k : Jobs}, Jobs.Moves dry e j0 k → Jobs.Moves dry e j0 (if b then k.askOwed e else k) := by
    intro k hk
    split
    · exact hk.askOwed
    · exact hk
  refine h3 (Jobs.Moves.startTest (Jobs.Moves.postClaims (Jobs.Moves.plan _ ?_)))
  split
  · exact h2.endRunning
  · exact h2

theorem Jobs.Moves.beginProving (n : Nat) (h : Jobs.Moves dry e j0 j) : Jobs.Moves dry e j0 (j.beginProving e n) := by
  unfold Jobs.beginProving
  split
  · exact h.updateRun ..
  · exact h.updateRun ..

theorem Jobs.Moves.startResult (n : Nat) (a : Action) (r : CmdResult) (h : Jobs.Moves dry e j0 j) :
    Jobs.Moves dry e j0 (j.startResult e n a r) := by
  unfold Jobs.startResult
  split
  · exact (h.plan _).endRun _
  · split
    · exact h.beginProving _
    · exact h

theorem Jobs.Moves.startsResult (i : Nat) (a : Action) (r : CmdResult) (h : Jobs.Moves dry e j0 j) :
    Jobs.Moves dry e j0 (j.startsResult e i a r) := by
  unfold Jobs.startsResult
  dsimp only
  split
  · exact h.plan _
  · split
    · split
      · exact h.plan _
      · split
        · exact (h.plan _).startResult ..
        · exact h.plan _
    · exact h

theorem Jobs.Moves.stopsResult (i : Nat) (a : Action) (r : CmdResult) (h : Jobs.Moves dry e j0 j) :
    Jobs.Moves dry e j0 (j.stopsResult e i a r) := by
  unfold Jobs.stopsResult
  split
  · split
    · exact h.plan _
    · exact h.plan _
  · split
    · exact h.request ..
    · exact h

theorem Jobs.Moves.fillResult (i : Nat) (a : Action) (r : CmdResult) (h : Jobs.Moves dry e j0 j) :
    Jobs.Moves dry e j0 (j.fillResult e i a r) := by
  unfold Jobs.fillResult
  split
  · exact (h.startsResult ..).fillEvaluate _
  · exact (h.stopsResult ..).fillEvaluate _

theorem Jobs.Moves.flowAtRun (n f : Nat) (h : Jobs.Moves dry e j0 j) : Jobs.Moves dry e j0 (j.flowAtRun e n f) := by
  have hl : Jobs.Moves dry e j0 (if decide (e.set.general.minFlow ≤ f) then j.learnFlow f else j) := by
    split
    · exact h.plan _
    · exact h
  unfold Jobs.flowAtRun
  dsimp only
  generalize (if decide (e.set.general.minFlow ≤ f) then j.learnFlow f else j) = k at hl
  split
  · split
    · exact (h.updateRun ..).plan _
    · exact h
  · split
    · split
      · split
        · exact hl.updateRun ..
        · exact hl
      · exact hl.updateRun ..
    · exact h
  · exact h
  · exact h

theorem Jobs.Moves.inletAtRun (f : Option Nat) (h : Jobs.Moves dry e j0 j) : Jobs.Moves dry e j0 (j.inletAtRun e f) := by
  unfold Jobs.inletAtRun
  split
  · exact h
  · exact h.flowAtRun ..
  · split
    · exact h.updateRun ..
    · exact h

theorem Jobs.Moves.fillInlet (f : Option Nat) (h : Jobs.Moves dry e j0 j) : Jobs.Moves dry e j0 (j.fillInlet e f) := by
  unfold Jobs.fillInlet
  dsimp only
  split
  · exact ((h.plan _).inletAtRun f).fillEvaluate _
  · exact (h.plan _).inletAtRun f

theorem Jobs.Moves.fillFaults (h : Jobs.Moves dry e j0 j) : Jobs.Moves dry e j0 (j.fillFaults e) := by
  unfold Jobs.fillFaults
  refine Jobs.Moves.fillEvaluate _ ?_
  split
  · exact h
  · exact h.clear _ rfl

theorem Jobs.Moves.fillDiscord (i : Nat) (h : Jobs.Moves dry e j0 j) : Jobs.Moves dry e j0 (j.fillDiscord e i) := by
  unfold Jobs.fillDiscord
  refine Jobs.Moves.fillEvaluate _ ?_
  split
  · exact h
  · split
    · exact h.endRun _
    · exact h

/-! ## Overflow guard (spec/06) -/

theorem Jobs.Moves.keepDemand (x : Nat × Action) (h : Jobs.Moves dry e j0 j) : Jobs.Moves dry e j0 (j.keepDemand e x) := by
  unfold Jobs.keepDemand
  split
  · exact h.guardGroup _
  · exact h

theorem Jobs.Moves.keepDemands (s : Option Nat) (h : Jobs.Moves dry e j0 j) : Jobs.Moves dry e j0 (j.keepDemands e s) := by
  unfold Jobs.keepDemands
  split
  · exact h
  · exact Jobs.Moves.foldl _ _ (fun x hx => hx.keepDemand x) h

theorem Jobs.Moves.endReissue (h : Jobs.Moves dry e j0 j) : Jobs.Moves dry e j0 (j.endReissue e) := by
  unfold Jobs.endReissue
  split
  · exact (h.guarding (fun g => { g with reissue := false }) (fun _ => id) (fun _ => id) (fun _ => id) (fun _ _ => ⟨id, rfl⟩)).guardGroup _
  · exact h

theorem Jobs.Moves.queueGroups (a b c : Bool) (s : Option Nat) (h : Jobs.Moves dry e j0 j) :
    Jobs.Moves dry e j0 (j.queueGroups e a b c s) := by
  unfold Jobs.queueGroups
  refine Jobs.Moves.keepDemands _ (Jobs.Moves.endReissue ?_)
  split
  · exact (h.guarding (fun g => { g with reissue := false }) (fun _ => id) (fun _ => id) (fun _ => id) (fun _ _ => ⟨id, rfl⟩)).guardGroup _
  · split
    · exact h.guardGroup _
    · exact h

theorem Jobs.Moves.bandConditions (h : Jobs.Moves dry e j0 j) : Jobs.Moves dry e j0 (j.bandConditions e) :=
  ((h.keep _ rfl _).keep _ rfl _).keep _ rfl _

theorem Jobs.Moves.blindAction (h : Jobs.Moves dry e j0 j) : Jobs.Moves dry e j0 (j.blindAction e) :=
  (h.raise _ rfl).guardGroup _

theorem Jobs.Moves.blindTest (c : BlindCause) (h : Jobs.Moves dry e j0 j) : Jobs.Moves dry e j0 (j.blindTest e c) := by
  unfold Jobs.blindTest
  dsimp only
  split
  · exact h
  · exact h
  · split
    · split
      · exact h
      · exact h.blindAction
    · exact (h.guarding (fun g => { g with blindStart := none }) (fun _ => id) (fun _ => id) (fun _ _ => rfl)
        (fun _ _ => ⟨id, rfl⟩)).clear _ rfl
  · split
    · exact h.blindAction
    · exact h

theorem nextBand_latched (g : GuardSettings) (blind : Bool) (f : FloatState) (l : Nat) (b : GuardBand) :
    nextBand g blind true f l b = .trip := by
  unfold nextBand
  split
  · rfl
  · rfl

theorem nextDrain_isSome (g : GuardSettings) (blind : Bool) (l : Nat) (r : GuardRecord) (h : r.drainDemand.isSome = true) :
    (nextDrain g blind l r).isSome = true := by
  unfold nextDrain
  split
  · split <;> rfl
  · split <;> rfl
  · next hn => rw [hn] at h; cases h

/-- R107, R110, R112: the band derived, the latch, and the demands: a latched trip keeps its demands. -/
theorem GuardRecord.held_evaluate (e : Env) (level : LevelRecord) (blind : Bool) (l : Nat) (r : GuardRecord) (h : r.Held) :
    let band := nextBand e.set.guard blind r.latch r.float l r.band
    let enters := band == .trip && r.band != .trip
    ((({ r with band := band, latch := r.latch || enters } : GuardRecord).bandDemands enters).drainMoves e level
      enters).Held := by
  dsimp only
  generalize hband : nextBand e.set.guard blind r.latch r.float l r.band = band
  cases hl : r.latch with
  | true =>
    obtain ⟨hb, hp, hi, hd⟩ := h hl
    rw [hl, nextBand_latched] at hband
    subst hband
    simp only [hb, bne_self_eq_false, Bool.and_false, Bool.or_false]
    unfold GuardRecord.bandDemands GuardRecord.drainMoves
    simp only [Bool.false_eq_true, if_false, if_true, Bool.not_false, Bool.and_true]
    intro _
    exact ⟨rfl, hp, hi, nextDrain_isSome _ _ _ _ hd⟩
  | false =>
    cases he : (band == GuardBand.trip && r.band != .trip) with
    | true =>
      intro _
      have hb : band = .trip := by
        simp only [Bool.and_eq_true, beq_iff_eq] at he; exact he.1
      unfold GuardRecord.bandDemands GuardRecord.drainMoves
      simp [hb]
    | false =>
      unfold GuardRecord.bandDemands GuardRecord.drainMoves
      simp [GuardRecord.Held]

theorem GuardRecord.drainMoves_keeps (e : Env) (l : LevelRecord) (b c : Bool) (g : GuardRecord) :
    ((g.bandDemands c).drainMoves e l b).latch = g.latch
      ∧ ((g.bandDemands c).drainMoves e l b).blindStart = g.blindStart
      ∧ ((g.bandDemands c).drainMoves e l b).float = g.float := by
  unfold GuardRecord.drainMoves GuardRecord.bandDemands
  split <;> (try split) <;> (try split) <;> exact ⟨rfl, rfl, rfl⟩

/-- R107: in BLIND, with the latch clear and the float not wet, the band stays. -/
theorem nextBand_calm (g : GuardSettings) {f : FloatState} (hf : f ≠ .wet) (l : Nat) (b : GuardBand) :
    nextBand g true false f l b = b := by
  unfold nextBand
  cases f <;> first | rfl | exact absurd rfl hf

theorem Jobs.Moves.bandStep (h : Jobs.Moves dry e j0 j) : Jobs.Moves dry e j0 (j.bandStep e) := by
  have hh := GuardRecord.held_evaluate e j.level (j.level.fusion == .blind) j.level.guard j.guard
  unfold Jobs.bandStep
  dsimp only at hh ⊢
  generalize hg : ((({ j.guard with
      band := nextBand e.set.guard (j.level.fusion == .blind) j.guard.latch j.guard.float j.level.guard j.guard.band,
      latch := j.guard.latch || (nextBand e.set.guard (j.level.fusion == .blind) j.guard.latch j.guard.float j.level.guard
        j.guard.band == .trip && j.guard.band != .trip) } : GuardRecord).bandDemands
      (nextBand e.set.guard (j.level.fusion == .blind) j.guard.latch j.guard.float j.level.guard
        j.guard.band == .trip && j.guard.band != .trip)).drainMoves e j.level
      (nextBand e.set.guard (j.level.fusion == .blind) j.guard.latch j.guard.float j.level.guard
        j.guard.band == .trip && j.guard.band != .trip)) = g at hh ⊢
  have hk : Jobs.Keeps dry j { j with guard := g } := by
    refine ⟨hh, fun hl => ?_, fun hb => ?_, fun _ => id, fun _ hj => ?_⟩
    · rw [← hg]
      show GuardRecord.latch _ = true
      rw [(GuardRecord.drainMoves_keeps ..).1, hl]; rfl
    · rw [← hg]
      show GuardRecord.blindStart _ = none
      rw [(GuardRecord.drainMoves_keeps ..).2.1]; exact hb
    · refine ⟨hj.gaugeA, hj.gaugeB, hj.blind, ?_, ?_, hj.work⟩
      · rw [← hg]
        show GuardRecord.float _ ≠ _
        rw [(GuardRecord.drainMoves_keeps ..).2.2]; exact hj.float
      · rw [← hg]
        show GuardRecord.latch _ = false
        rw [(GuardRecord.drainMoves_keeps ..).1, hj.blind, hj.latch]
        show (false || (nextBand _ true _ _ _ _ == _ && _)) = false
        rw [nextBand_calm _ hj.float]
        cases j.guard.band <;> rfl
  split
  · exact Jobs.Moves.askWord (h.quiet rfl rfl hk)
  · exact h.quiet rfl rfl hk

theorem Jobs.Moves.guardEvaluate (c : BlindCause) (h : Jobs.Moves dry e j0 j) : Jobs.Moves dry e j0 (j.guardEvaluate e c) := by
  unfold Jobs.guardEvaluate
  dsimp only
  split
  · exact ((h.bandStep.queueGroups ..).bandConditions).blindTest c
  · exact (((h.bandStep.queueGroups ..).bandConditions).blindTest c).post _

theorem floatState_dry (s : Settings) {w : Option Bool} (h : w ≠ some true) : floatState s w ≠ .wet := by
  unfold floatState
  split
  · intro h; cases h
  · split
    · intro h; cases h
    · exact absurd rfl h
    · intro h; cases h

theorem Jobs.Moves.guardFloat (w : Option Bool) (h : Jobs.Moves dry e j0 j) (hc : dry = true → w ≠ some true) :
    Jobs.Moves dry e j0 (j.guardFloat e w) := by
  unfold Jobs.guardFloat
  dsimp only
  split
  · exact h
  · exact (h.guarding (fun g => { g with float := floatState e.set w }) (fun _ => id) (fun _ => id) (fun _ => id)
      (fun hd _ => ⟨fun _ => floatState_dry _ (hc hd), rfl⟩)).guardEvaluate _

/-! ## Frost unit (spec/07) -/

theorem Jobs.Moves.dutyTaken (z t : Nat) (r : Taken) (h : Jobs.Moves dry e j0 j) : Jobs.Moves dry e j0 (j.dutyTaken z t r) := by
  unfold Jobs.dutyTaken
  split
  · exact h.updateZone ..
  · exact h

theorem Jobs.Moves.askDuty (z i t : Nat) (h : Jobs.Moves dry e j0 j) : Jobs.Moves dry e j0 (j.askDuty e z i t) :=
  ((h.updateZone z Zone.idle).take ..).dutyTaken ..

theorem Jobs.Moves.dutyRequest (z : Nat) (h : Jobs.Moves dry e j0 j) : Jobs.Moves dry e j0 (j.dutyRequest e z) := by
  unfold Jobs.dutyRequest
  split
  · exact h
  · dsimp only
    split
    · exact h.askDuty ..
    · exact h

theorem Jobs.Moves.freezeTest (h : Jobs.Moves dry e j0 j) : Jobs.Moves dry e j0 (j.freezeTest e) := h.keep _ rfl _

theorem Jobs.Moves.zoneEvaluate (z : Nat) (h : Jobs.Moves dry e j0 j) : Jobs.Moves dry e j0 (j.zoneEvaluate e z) :=
  (Jobs.Moves.dutyRequest z ((((h.updateZone ..).updateZone ..).postZone ..).updateZone ..)).freezeTest

theorem Jobs.Moves.evaluateZones (h : Jobs.Moves dry e j0 j) : Jobs.Moves dry e j0 j.evaluateZones := h.tellFirst _

theorem Jobs.Moves.suspectTest (k : HeadKind) (z : Option Nat) (h : Jobs.Moves dry e j0 j) :
    Jobs.Moves dry e j0 (j.suspectTest e k z) := by
  unfold Jobs.suspectTest
  split
  · dsimp only
    split
    · exact h
    · exact Jobs.Moves.post _ (h.quiet (by unfold Jobs.hull; simp only [updateAt_length]) rfl (.same rfl rfl))
  · exact h

theorem Jobs.Moves.suspectTests (h : Jobs.Moves dry e j0 j) : Jobs.Moves dry e j0 (j.suspectTests e) :=
  (h.suspectTest ..).suspectTest ..

theorem Jobs.Moves.frostProbe (z : Nat) (t : Option Int) (h : Jobs.Moves dry e j0 j) :
    Jobs.Moves dry e j0 (j.frostProbe e z t) := by
  unfold Jobs.frostProbe
  dsimp only
  have h1 := (h.updateZone z (fun r => { r with probe := t })).zoneEvaluate z
  have h2 : Jobs.Moves dry e j0 (if e.set.guard.housingA = some z then
      ((j.updateZone z (fun r => { r with probe := t })).zoneEvaluate e z).suspectTest e .gaugePressure (some z)
      else (j.updateZone z (fun r => { r with probe := t })).zoneEvaluate e z) := by
    split
    · exact h1.suspectTest ..
    · exact h1
  split
  · exact h2.suspectTest ..
  · exact h2

theorem Jobs.Moves.frostAir (t : Option Int) (h : Jobs.Moves dry e j0 j) : Jobs.Moves dry e j0 (j.frostAir t) :=
  (h.frosted _ (by intro; rfl)).evaluateZones

theorem Jobs.Moves.frostMinute (h : Jobs.Moves dry e j0 j) : Jobs.Moves dry e j0 (j.frostMinute e) :=
  Jobs.Moves.tellFirst _ ((h.frosted (Frost.aged e.set) fun _ => rfl).quiet rfl rfl
    (.same rfl rfl rfl fun x hx => by
      rcases List.mem_cons.mp hx with rfl | hx
      · exact .inr rfl
      · exact .inl hx))

theorem Jobs.Moves.frostMinuteZone (z : Nat) (h : Jobs.Moves dry e j0 j) : Jobs.Moves dry e j0 (j.frostMinuteZone e z) :=
  (h.updateZone ..).zoneEvaluate z

theorem Jobs.Moves.frostGrant (z g : Nat) (h : Jobs.Moves dry e j0 j) : Jobs.Moves dry e j0 (j.frostGrant e z g) :=
  (h.updateZone ..).zoneEvaluate z

theorem Jobs.Moves.frostResult (i : Nat) (a : Action) (r : CmdResult) (h : Jobs.Moves dry e j0 j) :
    Jobs.Moves dry e j0 (j.frostResult e i a r) := by
  unfold Jobs.frostResult
  split
  · exact h
  · exact (h.updateZone ..).zoneEvaluate _

theorem Jobs.Moves.frostDiscord (i : Nat) (h : Jobs.Moves dry e j0 j) : Jobs.Moves dry e j0 (j.frostDiscord e i) := by
  unfold Jobs.frostDiscord
  split
  · exact h
  · refine Jobs.Moves.zoneEvaluate _ ?_
    split
    · exact h
    · exact h.updateZone ..

theorem Jobs.Moves.frostHold (i : Nat) (b : Bool) (h : Jobs.Moves dry e j0 j) : Jobs.Moves dry e j0 (j.frostHold e i b) := by
  unfold Jobs.frostHold
  split
  · exact h
  · refine Jobs.Moves.zoneEvaluate _ ?_
    split
    · exact h.updateZone ..
    · exact h

theorem Jobs.Moves.frostStatus (i m : Nat) (h : Jobs.Moves dry e j0 j) : Jobs.Moves dry e j0 (j.frostStatus e i m) := by
  unfold Jobs.frostStatus
  split
  · exact h
  · exact h.updateZone ..

theorem Jobs.Moves.frostFaults (h : Jobs.Moves dry e j0 j) : Jobs.Moves dry e j0 (j.frostFaults e) := by
  unfold Jobs.frostFaults
  split
  · exact h
  · exact h.clear _ rfl

/-! ## Settling (log 2) -/

/-- What a telling does in the block it is told to. -/
theorem Jobs.Moves.handle (ev : Event) (h : Jobs.Moves dry e j0 j) (hc : dry = true → ev.calm = true) :
    Jobs.Moves dry e j0 (j.handle e ev) := by
  cases ev with
  | gaugeA _ _ _ _ _ => exact h.recompute _ _ fun hd => by cases hc hd
  | gaugeB _ _ _ => exact h.recompute _ _ fun hd => by cases hc hd
  | gaugeAGone => exact h.recompute _ _ fun _ hj => ⟨rfl, hj.gaugeB⟩
  | gaugeBGone => exact h.recompute _ _ fun _ hj => ⟨hj.gaugeA, rfl⟩
  | recompute => exact h.recompute _ _ fun _ hj => ⟨hj.gaugeA, hj.gaugeB⟩
  | fillEval => exact h.fillEvaluate _
  | fillInlet f => exact h.fillInlet f
  | fillOutlet f => exact h.quiet rfl rfl (.same rfl rfl)
  | fillResult i a r => exact h.fillResult i a r
  | fillCommanded => exact h.fillCommanded
  | fillDiscord i => exact h.fillDiscord i
  | fillFaults => exact h.fillFaults
  | guardEval => exact h.guardEvaluate _
  | guardLevel b => exact h.guardEvaluate _
  | guardFloat w =>
    refine h.guardFloat w fun hd hw => ?_
    subst hw
    cases hc hd
  | guardResult _ _ => exact h.guardEvaluate _
  | frostZone z => exact h.zoneEvaluate z
  | frostProbe z t => exact h.frostProbe z t
  | frostAir t => exact h.frostAir t
  | frostInlet f => exact h.quiet rfl rfl (.same rfl rfl)
  | frostOutlet f => exact h.quiet rfl rfl (.same rfl rfl)
  | frostMinute => exact h.frostMinute
  | frostMinuteZone z => exact h.frostMinuteZone z
  | frostResult i a r => exact h.frostResult i a r
  | frostStatus i m => exact h.frostStatus i m
  | frostDiscord i => exact h.frostDiscord i
  | frostHold i b => exact h.frostHold i b
  | frostGrant z g => exact h.frostGrant z g
  | frostFaults => exact h.frostFaults
  | frostSuspect => exact h.suspectTests
  | pass => exact h.pass
  | cap => exact h.deriveCap
  | powerResult i r => exact h.powerResult i r
  | operatorResult i a r => exact h.operatorResult i a r
  | condMinute => exact h.repost

theorem movedTold_calm (s : Settings) (a c : Jobs) : ∀ ev ∈ movedTold s a c, ev.calm = true := by
  intro ev h
  unfold movedTold at h
  dsimp only at h
  simp only [List.mem_append] at h
  rcases h with (h | h) | h <;> split at h
  · rw [List.mem_singleton.mp h]; rfl
  · cases h
  · rw [List.mem_singleton.mp h]; rfl
  · cases h
  · rw [List.mem_singleton.mp h]; rfl
  · cases h

theorem Jobs.Moves.flagsFollow (j1 : Jobs) (h : Jobs.Moves dry e j0 j) : Jobs.Moves dry e j0 (flagsFollow e j1 j) := by
  unfold Sys2Proof.Machine.flagsFollow
  split
  · exact h.incumbents
  · exact h

theorem Jobs.Moves.observe (e1 : Env) (j1 : Jobs) (h : Jobs.Moves dry e j0 j) : Jobs.Moves dry e j0 (observe e1 j1 e j) := by
  unfold Sys2Proof.Machine.observe
  dsimp only
  refine Jobs.Moves.figures _ ?_
  split
  · exact h.discordTest
  · exact (h.discordTest.flagsFollow _).tell _ (movedTold_calm _ _ _)

theorem Jobs.Moves.takeEvent (ev : Event) (h : Jobs.Moves dry e j0 j) (hc : dry = true → ev.calm = true) :
    Jobs.Moves dry e j0 (j.takeEvent e ev) := (h.handle ev hc).observe _ _

theorem Jobs.Moves.drain (n : Nat) (h : Jobs.Moves dry e j0 j) (hc : dry = true → j.Calm) :
    Jobs.Moves dry e j0 (Jobs.drain e n j) := by
  induction n generalizing j with
  | zero =>
    unfold Jobs.drain Jobs.unbar
    exact h.plan _
  | succ n ih =>
    unfold Jobs.drain
    split
    · unfold Jobs.unbar
      exact h.plan _
    · next ev rest hw =>
      have hs : Jobs.Keeps dry j { j with work := rest } :=
        .same rfl rfl rfl fun x hx => .inl (hw ▸ List.mem_cons_of_mem _ hx)
      have hev : dry = true → ev.calm = true := fun hd => (hc hd).work ev (hw ▸ List.mem_cons_self)
      exact ih (Jobs.Moves.takeEvent _ (h.quiet rfl rfl hs) hev) fun hd =>
        ((Jobs.Moves.refl (dry := dry)).takeEvent ev hev).keeps.calm hd (hs.calm hd (hc hd))

/-- Whatever the tellings of a settling do stays within `Jobs.Moves`. -/
theorem Jobs.Moves.settle (h : Jobs.Moves dry e j0 j) (hc : dry = true → j.Calm) : Jobs.Moves dry e j0 (j.settle e) :=
  h.drain _ hc

end Sys2Proof.Machine
end

