-- ==== Sys2Proof/Laws/Settle.lean ====
section
/-!
SUPPORT. What a settling keeps (log 2): the fields that only a command writes, the outside kinds of the Condition Table, the
alert line's rule, the bounds of the Report unit and the demands of a latched trip; and that a change of the Condition and
Report units alone causes nothing else.
-/

namespace Sys2Proof.Machine

variable {dry : Bool} {e : Env} {j0 j : Jobs}

/-! ## Consequences of Jobs.Moves -/

theorem Jobs.hull_tele' (f : TeleEnv → Tele → Tele) (e : Env) (j : Jobs) : (j.tele' f e).hull = j.hull := rfl

theorem Jobs.Moves.hull_eq (h : Jobs.Moves dry e j0 j) : j.hull = j0.hull := by
  induction h with
  | refl => rfl
  | quiet _ a _ _ ih => exact a.trans ih
  | raise _ _ _ ih => exact (Jobs.hull_tele' ..).trans ih
  | clear _ _ _ ih => exact (Jobs.hull_tele' ..).trans ih
  | notice _ _ ih => exact (Jobs.hull_tele' ..).trans ih
  | quantity _ _ ih => exact (Jobs.hull_tele' ..).trans ih
  | figures _ _ ih => exact (Jobs.hull_tele' ..).trans ih
  | repost _ ih => exact (Jobs.hull_tele' ..).trans ih

/-- What two records with one hull share at an actuator. -/
theorem Jobs.hull_act {j j' : Jobs} (h : j.hull = j'.hull) (i : Nat) : (j.act i).view = (j'.act i).view := by
  have ha : j.acts.map ActRuntime.view = j'.acts.map ActRuntime.view := congrArg Hull.acts h
  have hg : ∀ l : List ActRuntime, (l.getD i .powerOn).view = (l.map ActRuntime.view).getD i ActRuntime.powerOn.view := by
    intro l
    rw [List.getD_eq_getElem?_getD, List.getD_eq_getElem?_getD, List.getElem?_map]
    cases l[i]? <;> rfl
  unfold Jobs.act
  rw [hg, hg, ha]

/-- A property of the Condition and Report units that every raise, clear, notice and changed quantity keeps. -/
theorem Jobs.Moves.tele (P : Tele → Prop) (h : Jobs.Moves dry e j0 j)
    (raise : ∀ v k t, v.alerts = e.set.alerts → k.inside = true → P t → P (t.raise v k))
    (clear : ∀ v k t, v.alerts = e.set.alerts → k.inside = true → P t → P (t.clear v k))
    (notice : ∀ v n t, P t → P (t.postNotice v n))
    (quantity : ∀ v q t, P t → P (t.quantityChanged v q))
    (figures : ∀ v b t, P t → P (t.figuresChanged v b))
    (repost : ∀ v t, P t → P (t.repost v)) (h0 : P j0.tele) : P j.tele := by
  induction h with
  | refl => exact h0
  | quiet _ _ b _ ih => rw [b]; exact ih
  | raise k hk _ ih => unfold Jobs.raise; rw [Jobs.tele'_tele]; exact raise _ k _ rfl hk ih
  | clear k hk _ ih => unfold Jobs.clear; rw [Jobs.tele'_tele]; exact clear _ k _ rfl hk ih
  | notice n _ ih => unfold Jobs.notice; rw [Jobs.tele'_tele]; exact notice _ n _ ih
  | quantity q _ ih => rw [Jobs.tele'_tele]; exact quantity _ q _ ih
  | figures b _ ih => rw [Jobs.tele'_tele]; exact figures _ b _ ih
  | repost _ ih => rw [Jobs.tele'_tele]; exact repost _ _ ih

/-- R157: the alert line's rule is kept. -/
theorem Jobs.Moves.alertFollows (h : Jobs.Moves dry e j0 j) (h0 : j0.tele.AlertFollows e.set.alerts) :
    j.tele.AlertFollows e.set.alerts :=
  h.tele (fun t => t.AlertFollows e.set.alerts)
    (fun v k t hv _ ht => hv ▸ t.alertFollows_raise v k (hv ▸ ht))
    (fun v k t hv _ ht => hv ▸ t.alertFollows_clear v k (hv ▸ ht))
    (fun v n t ht => Tele.AlertFollows.of_same (t.same_postNotice v n) ht)
    (fun v q t ht => Tele.AlertFollows.of_same (t.same_quantityChanged v q) ht)
    (fun v b t ht => Tele.AlertFollows.of_same (t.same_figuresChanged v b) ht)
    (fun v t ht => Tele.AlertFollows.of_same (t.same_repost v) ht) h0

/-- The Condition Table keeps its length. -/
theorem Jobs.Moves.conds (h : Jobs.Moves dry e j0 j) : j.tele.conds.length = j0.tele.conds.length :=
  h.tele (fun t => t.conds.length = j0.tele.conds.length)
    (fun v k t _ _ ht => (t.raise_conds_length v k).trans ht) (fun v k t _ _ ht => (t.clear_conds_length v k).trans ht)
    (fun v n t ht => (t.same_postNotice v n).conds.trans ht) (fun v q t ht => (t.same_quantityChanged v q).conds.trans ht)
    (fun v b t ht => (t.same_figuresChanged v b).conds.trans ht) (fun v t ht => (t.same_repost v).conds.trans ht) rfl

/-- R158: in LEVEL mode no pulse starts. -/
theorem Jobs.Moves.pulseFollows (h : Jobs.Moves dry e j0 j) (h0 : j0.tele.PulseFollows e.set.alerts) :
    j.tele.PulseFollows e.set.alerts := fun hm =>
  h.tele (fun t => t.pulse = none)
    (fun v k t hv _ ht => (t.raise_pulse v k (by rw [hv]; exact hm)).trans ht)
    (fun v k t _ _ ht => (t.clear_pulse v k).trans ht)
    (fun v n t ht => (t.same_postNotice v n).pulse.trans ht) (fun v q t ht => (t.same_quantityChanged v q).pulse.trans ht)
    (fun v b t ht => (t.same_figuresChanged v b).pulse.trans ht) (fun v t ht => (t.same_repost v).pulse.trans ht) (h0 hm)

/-- The bounds of the Report unit are kept. -/
theorem Jobs.Moves.bounds (h : Jobs.Moves dry e j0 j) (h0 : j0.tele.Bounds) : j.tele.Bounds :=
  h.tele Tele.Bounds (fun v k _ _ _ ht => ht.raise v k) (fun v k _ _ _ ht => ht.clear v k)
    (fun v n _ ht => ht.postNotice v n) (fun v q _ ht => ht.quantityChanged v q) (fun v b _ ht => ht.figuresChanged v b)
    (fun v _ ht => ht.repost v) h0

/-- The marks and the count of a kind that belongs to commands alone are kept. -/
theorem Jobs.Moves.flags (h : Jobs.Moves dry e j0 j) {k : CondKind} (hk : k.inside = false) :
    j.tele.flags k = j0.tele.flags k :=
  h.tele (fun t => t.flags k = j0.tele.flags k)
    (fun v k' t _ hk' ht => (t.flags_raise_ne v (fun hh => by rw [hh, hk'] at hk; cases hk)).trans ht)
    (fun v k' t _ hk' ht => (t.flags_clear_ne v (fun hh => by rw [hh, hk'] at hk; cases hk)).trans ht)
    (fun v n t ht => ((t.same_postNotice v n).flags k).trans ht)
    (fun v q t ht => ((t.same_quantityChanged v q).flags k).trans ht)
    (fun v b t ht => ((t.same_figuresChanged v b).flags k).trans ht)
    (fun v t ht => ((t.same_repost v).flags k).trans ht) rfl

/-- What a command leaves once it is complete is within `Jobs.Moves` of what it wrote. -/
theorem Jobs.moves_complete (e0 e : Env) (j0 j : Jobs) : Jobs.Moves false e j ((observe e0 j0 e j).settle e) :=
  (Jobs.Moves.refl.observe e0 j0).settle (fun h => by cases h)

/-- A settling by itself. -/
theorem Jobs.moves_settle (e : Env) (j : Jobs) : Jobs.Moves false e j (j.settle e) :=
  Jobs.Moves.refl.settle (fun h => by cases h)

/-- A settling leaves a calm part calm: nothing in it can trip the tower (R107). -/
theorem Jobs.Calm.settle (h : j.Calm) : (j.settle e).Calm :=
  ((Jobs.Moves.refl (dry := true) (e := e)).settle (fun _ => h)).keeps.calm rfl h

/-- And so does the completion of a command. -/
theorem Jobs.Calm.complete (e0 e : Env) (j0 : Jobs) (h : j.Calm) : ((observe e0 j0 e j).settle e).Calm :=
  Jobs.Calm.settle (((Jobs.Moves.refl (dry := true)).observe e0 j0).keeps.calm rfl h)

/-! ## Changes that cause nothing else -/

theorem Jobs.settle_idle (e : Env) (h : j.work = []) (hb : j.fill.startBar = []) : j.settle e = j := by
  have hp : j.unbar = j := by
    unfold Jobs.unbar Jobs.plan
    rw [← hb]
  unfold Jobs.settle Config.settleLimit Jobs.drain
  rw [h]
  exact hp

theorem Tele.figuresChanged_same (v : TeleEnv) (t : Tele) : t.figuresChanged v v.figures = t := by
  unfold Tele.figuresChanged
  have : ∀ (l : List Nat) (t : Tele), l.foldl (fun t q =>
      if q ≠ 0 ∧ v.figures.getD q none ≠ v.figures.getD q none then t.quantityChanged v q else t) t = t := by
    intro l
    induction l with
    | nil => intro t; rfl
    | cons q l ih =>
      intro t
      rw [List.foldl_cons, if_neg (fun hq => hq.2 rfl)]
      exact ih t
  exact this _ t

theorem Jobs.clear_inactive (e : Env) (k : CondKind) (h : j.active k = false) : j.clear e k = j := by
  have ht : j.tele.clear (teleEnv e j) k = j.tele := by
    unfold Tele.clear
    rw [if_pos]
    show (!j.active k || _) = true
    rw [h]; rfl
  unfold Jobs.clear Jobs.tele'
  dsimp only
  rw [ht]

theorem Jobs.discordTest_settled (h : j.DiscordSettled e) : j.discordTest e = j := by
  have hf : ∀ l : List Nat, (∀ i ∈ l, i < Config.actuatorCount) → l.foldl (fun (j : Jobs) i =>
      if (j.act i).discord && agrees (j.commanded i) (j.act i).reported then
        j.updateAct i (fun a => { a with discord := false }) else j) j = j := by
    intro l
    induction l with
    | nil => intro _; rfl
    | cons i l ih =>
      intro hl
      rw [List.foldl_cons, if_neg]
      · exact ih fun k hk => hl k (List.mem_cons_of_mem _ hk)
      · rw [Bool.and_eq_true]
        intro hd
        have := h.1 i (hl i List.mem_cons_self) hd.1
        rw [hd.2] at this
        cases this
  unfold Jobs.discordTest
  dsimp only
  rw [hf _ fun i hi => List.mem_range.mp hi]
  split
  · rfl
  · next hn =>
    rcases h.2 with ⟨i, hi, hu, hd⟩ | ha
    · exact absurd (List.any_eq_true.mpr ⟨i, List.mem_range.mpr hi, by rw [hu, hd]; rfl⟩) hn
    · exact j.clear_inactive e _ ha

theorem Jobs.commanded_congr {j j' : Jobs} (hq : j'.queue = j.queue) (ha : j'.acts = j.acts) (i : Nat) :
    j'.commanded i = j.commanded i := by
  unfold Jobs.commanded Jobs.act
  rw [hq, ha]

theorem filter_range_nil {p : Nat → Bool} (n : Nat) (h : ∀ i, p i = false) : (List.range n).filter p = [] :=
  List.filter_eq_nil_iff.mpr fun i _ => by rw [h i]; decide

theorem commandedMoved_same {j j' : Jobs} (hq : j'.queue = j.queue) (ha : j'.acts = j.acts) : commandedMoved j j' = [] :=
  filter_range_nil _ fun i => by rw [Jobs.commanded_congr hq ha]; exact bne_self_eq_false _

theorem movedTold_same (s : Settings) {j j' : Jobs} (hq : j'.queue = j.queue) (ha : j'.acts = j.acts) :
    movedTold s j j' = [] := by
  have hc := commandedMoved_same hq ha
  have hr : reportedMoved j j' = [] := filter_range_nil _ fun i => by
    unfold Jobs.act; rw [ha]; exact bne_self_eq_false _
  unfold movedTold
  rw [hc, hr]
  rfl

/-- A change that moves no actuator, no queue item, no figure and no ACTUATOR_DISCORD, and tells nothing, stays as it is:
the settling adds nothing. -/
theorem State.work_quiet {s : State} {f : Env → Jobs → Jobs} (h : s.Settled) (hq : (f s.env s.jobs).queue = s.jobs.queue)
    (ha : (f s.env s.jobs).acts = s.jobs.acts) (hw : (f s.env s.jobs).work = [])
    (hb : (f s.env s.jobs).fill.startBar = []) (hf : figures s.env (f s.env s.jobs) = figures s.env s.jobs)
    (hd : (f s.env s.jobs).active .actuatorDiscord = s.jobs.active .actuatorDiscord) :
    s.work f = { s with jobs := f s.env s.jobs } := by
  obtain ⟨-, -, h1, h2⟩ := h
  have hset : (f s.env s.jobs).DiscordSettled s.env := by
    refine ⟨fun i hi hm => ?_, ?_⟩
    · rw [Jobs.commanded_congr hq ha]
      unfold Jobs.act at hm ⊢
      rw [ha] at hm ⊢
      exact h1 i hi hm
    · rw [hd]
      unfold Jobs.act
      rw [ha]
      exact h2
  have hfig : (f s.env s.jobs).tele.figuresChanged (teleEnv s.env (f s.env s.jobs)) (figures s.env s.jobs)
      = (f s.env s.jobs).tele := by
    rw [← hf]
    exact Tele.figuresChanged_same (teleEnv s.env (f s.env s.jobs)) _
  have ho : observe s.env s.jobs s.env (f s.env s.jobs) = f s.env s.jobs := by
    unfold observe
    dsimp only
    rw [Jobs.discordTest_settled hset, movedTold_same _ hq ha]
    show (f s.env s.jobs).tele' _ s.env = _
    unfold Jobs.tele'
    dsimp only
    rw [hfig]
  show ({ s with env := s.env, jobs := (observe s.env s.jobs s.env (f s.env s.jobs)).settle s.env } : State) = _
  rw [ho, Jobs.settle_idle _ hw hb]

/-- The tellings that an earlier command left are none: a command begins at once. -/
theorem State.powerCommand_settled {s : State} (h : s.Ready) (f : State → State) :
    s.powerCommand f = (f s).creditWatch := by
  obtain ⟨hp, hw, hb, -⟩ := h
  unfold State.powerCommand
  rw [if_pos hp, Jobs.settle_idle _ hw hb]
  rfl

end Sys2Proof.Machine
end

