-- ==== Sys2Proof/Tests/Slice0.lean ====
section
/-!
SUPPORT. The model's own tests: worked examples and tables of the spec, the checks of well-formedness, and for every
statement with hypotheses a concrete state and operands that meet them.
-/

namespace Sys2Proof.Tests

open Sys2Proof Sys2Proof.Machine

set_option Elab.async false

/-! ## A small plant -/

/-- A known head. -/
def headOf (k : HeadKind) (role : Nat) : HeadSettings := { HeadSettings.factory with kind := k, role := role, enabled := true }

/-- A governed actuator. -/
def actOf (address : Nat) (k : ActKind) (rated : Nat) : ActSettings :=
  { ActSettings.factory with address := address, kind := k, rated := rated, governed := true }

/-- Put a head at an address. -/
def putHead (a : Nat) (h : HeadSettings) (s : Settings) : Settings :=
  { s with heads := updateAt (fun _ => h) (a - 1) s.heads }

/-- Put an actuator at an index. -/
def putAct (i : Nat) (a : ActSettings) (s : Settings) : Settings :=
  { s with actuators := updateAt (fun _ => a) i s.actuators }

/-- Gauges at 5 and 6, a float at 7, a probe at 8, an inlet meter at 9, two pumps, an inlet valve, a MANUAL drain valve, a
heater of zone 0 and a service terminal at 40. -/
def plantSet : Settings :=
  let s := putHead 5 (headOf .gaugePressure 0) (putHead 6 (headOf .gaugeRanging 0) (putHead 7 (headOf .float 0) .factory))
  let s := putHead 8 (headOf .probe 0) (putHead 9 (headOf .flowIn 0) (putHead 40 (headOf .service 0) s))
  let s := putHead 20 (headOf .pump 1) (putHead 21 (headOf .pump 2) (putHead 24 (headOf .heater 0) s))
  let s := putAct 0 (actOf 20 .pump 180) (putAct 1 (actOf 21 .pump 180) (putAct 2 (actOf 22 .valveInlet 1) s))
  let s := putAct 3 (actOf 24 .heater 60) (putAct 4 { actOf 23 .valveDrain 1 with manual := true } s)
  { s with zones := updateAt (fun z => { z with heater := some 3 }) 0 s.zones }

/-- The plant with the part as power-on leaves it. -/
def plant : State := { State.reset with env := { State.reset.env with set := plantSet } }

/-- Change the loop interface. -/
def looped (f : Loop → Loop) (s : State) : State := { s with loop := f s.loop }

/-- Change the guard record. -/
def guarded (f : GuardRecord → GuardRecord) (s : State) : State := s.tally (Jobs.guarding f)

/-- The plant tripped. -/
def tripped : State :=
  guarded (fun g => { g with band := .trip, latch := true, pumpDemand := true, inletDemand := true,
                             drainDemand := some true }) plant

/-- Change actuator 0's record. -/
def pump1 (f : ActRuntime → ActRuntime) : State := plant.tally (Jobs.updateAct 0 f)

/-- An entry in flight for actuator `i`. -/
def flying (i : Nat) (a : Action) (travelling : Bool) : State :=
  plant.tally (fun j => { j with flight := [⟨i, a, .fill, travelling, 5⟩] })

/-- The state a command leaves. -/
def next (c : Instr) (s : State) : State :=
  match exec c s with
  | .next t => t
  | .fault _ => s
  | .refused _ => s

/-- A cell from the line master. -/
def fromLine (kind dest : Nat) (slots : List Slot) : List Byte := buildCell kind dest 62 false slots

/-- A cell from a head. -/
def fromHead (kind dest src : Nat) (slots : List Slot) : List Byte := buildCell kind dest src false slots

/-- A request cell of a kind from the service terminal. -/
def ask (kind id index : Nat) (data : List Slot) : List Byte := fromHead 8 63 40 (slotOf kind id index 7 :: data)

/-- The request of that cell. -/
def asked (kind id index : Nat) (data : List Slot) : Request := ⟨.field, .local, 40, slotOf kind id index 7, data⟩

/-- A request cell of a kind from the line master. -/
def askLine (kind id index : Nat) : List Byte := fromLine 8 63 [slotOf kind id index 7]

/-- The request of that cell. -/
def askedLine (kind id index : Nat) : Request := ⟨.line, .line, 62, slotOf kind id index 7, []⟩

theorem test_plant_ready : plant.Ready ∧ plant.Shaped := by decide +kernel

/-! ## Worked examples of the spec -/

/-- spec/01 R2: the check over the ASCII digits 123456789. -/
theorem test_crc_digits :
    crc16 [0x31#8, 0x32#8, 0x33#8, 0x34#8, 0x35#8, 0x36#8, 0x37#8, 0x38#8, 0x39#8] = 0x29B1#16 := by decide +kernel

/-- spec/06 R107: the table of examples. -/
theorem test_band_examples :
    let g : GuardSettings := { Settings.factory.guard with high := 9800, hihi := 10100, trip := 10400, hyst := 150 }
    let at' := fun level b => nextBand g false false .dry level b
    at' 10150 .normal = .highHigh ∧ at' 10000 .highHigh = .highHigh ∧ at' 9900 .highHigh = .high
      ∧ at' 9600 .highHigh = .normal ∧ at' 10450 .high = .trip := by decide

/-- spec/07 R124: the table of examples. -/
theorem test_tEff_examples :
    let s : SharedSettings := { Settings.factory.shared with pivot := -50, cUp := .half, cDn := .half }
    tEffOf s true (some 18) (some (-131)) 0 = some (-23)
      ∧ tEffOf { s with cDn := .quarter } true (some 18) (some (-131)) 0 = some (-3)
      ∧ tEffOf s true (some 40) (some 10) 240 = some 50
      ∧ tEffOf { s with pivot := 0, cDn := .one } true (some (-590)) (some (-500)) 0 = some (-600) := by decide

/-- spec/07 R126: the table of examples, from segment 3. -/
theorem test_segment_examples :
    let z := ZoneSettings.factory
    z.segment (-60) (some 3) = 4 ∧ z.segment (-45) (some 4) = 4 ∧ z.segment (-38) (some 4) = 3
      ∧ z.segment 5 (some 3) = 3 := by decide

/-- spec/08 R142: the table of examples; the zone's rated units stand in its heater's entry. -/
theorem test_grant_examples :
    let rated := fun n => putAct 3 (actOf 24 .heater n) plantSet
    let grant := fun n requested left => grantOf (rated n) 2 { Claim.powerOn with requested := requested } left
    grant 36 33 87 = 33 ∧ grant 36 33 30 = 30 ∧ grant 60 45 27 = 27 ∧ grant 60 45 5 = 0 ∧ grant 50 4 200 = 0 := by decide

/-- spec/05 R82: a second, and the last minute of the week. -/
theorem test_second_tick :
    (next .secondTick plant).env.clock.tow = ⟨0, 1⟩
      ∧ (TimeOfWeek.next ⟨10079, 59⟩) = (⟨0, 0⟩, true) := by decide +kernel

/-- spec/01 R12: a grant of 9 in mode add, twice, saturates at 15. -/
theorem test_credit_saturates :
    (next (.credit (fromLine 6 63 [slotOf 0x41 9 0 0])) (looped (fun l => { l with credits := 9 }) plant)).loop.credits
      = 15 := by decide +kernel

/-- spec/04 R63: a STATUS from a pump's head is taken, and its copy forwarded (spec/01 R5). -/
theorem test_status_taken :
    let t := next (.status (fromHead 2 62 20 [slotOf 0x20 2 0 0])) plant
    (t.jobs.act 0).reported.code = .on ∧ t.loop.lQueue.length = 1 := by decide +kernel

/-- spec/11 R173: a line source may not set the lock. -/
theorem test_lock_is_local : (next (.setLock .line (askLine 9 0 0)) plant).env.set.lock = false
    ∧ (next (.setLock .field (ask 9 0 0 [])) plant).env.set.lock = true := by decide +kernel

/-- spec/06 R106, R110: a wet float trips. -/
theorem test_wet_float_trips :
    (next (.sample (fromHead 1 62 7 [slotOf 3 0 0 1])) plant).jobs.guard.latch = true := by decide +kernel

/-- Pump 1 runs on a committed claim when the window closes and the cap falls to 100. -/
def closing : State :=
  let clock := { plant.env.clock with state := .synced, tariff := { plant.env.clock.tariff with cap := 100 } }
  let j := (plant.jobs.updateAct 0 (fun a => { a with settled := .on, reported := ⟨.on, 0, 0⟩ })).updateRun 1
    (fun r => { r with phase := .proved })
  let j := j.updateClaim 0 (fun c =>
    { c with cls := .committed, requested := 180, granted := 180, incumbent := true, fillClass := .committed })
  { plant with
    env := { plant.env with clock := clock }
    jobs := { j with
      power := { j.power with cap := 400 }
      level := { j.level with fusion := .agree, fill := 9000, guard := 9000 }
      fill := { j.fill with mode := .fillingCommitted, lead := some 1 } } }

/-- spec/08, the close of a window: the pump's OFF has the origin of the block that is told first (R141, R87). -/
theorem test_window_close_in_either_order :
    let queue := fun evs => (({ closing.jobs with work := evs }).settle closing.env).queue
    queue [.cap, .fillEval] = [.cmd 0 (.switch false) .allotment]
      ∧ queue [.fillEval, .cap] = [.cmd 0 (.switch false) .fill] := by decide +kernel

/-- spec/08 R138, R141: the flag is set when the commanded state becomes ON, and its pass comes before what waits. -/
theorem test_flag_set_at_its_event :
    let j : Jobs := { plant.jobs with work := [.frostMinute] }
    let k := observe plant.env j plant.env (j.request plant.env .fill [.cmd 0 (.switch true)])
    (k.claim 0).incumbent = true ∧ k.work.take 2 = [.pass, .frostMinute] := by decide +kernel

/-- spec/07 R132: a heater's entry put out of use, with and without an unsent FROST command: CANCELLED sets the retry wait. -/
theorem test_cancelled_by_write_sets_retry :
    let e : Env := { plant.env with set := putAct 3 .factory plantSet }
    let after := fun queue => (({ plant.jobs with queue := queue }).entryChanged e plantSet 3).zone 0
    (after [.cmd 3 (.duty 45) .frost]).retry = true ∧ (after []).retry = false := by decide +kernel

/-- spec/07 R132: of two DUTY 0 of FROST that time out, the one asked of an entry that was left acts on no zone record. -/
theorem test_left_duty_acts_on_no_zone :
    let after := fun o => (next (.ackTimeoutExpiry 3)
      (plant.tally (fun j => { j with flight := [⟨3, .duty 0, o, false, 5⟩] }))).jobs.zone 0
    (after .frostLeft).retry = false ∧ (after .frost).retry = true := by decide +kernel

/-- spec/06 R111: of the results for a guard OFF to a pump reported ON, only CANCELLED has it queued again at once. -/
theorem test_guard_result_by_itself :
    let j := tripped.jobs.updateAct 0 (fun a => { a with settled := .off, reported := ⟨.on, 0, 0⟩ })
    let again := fun r => (j.handle plant.env (.guardResult 0 r)).guardWaits 0
    again .failed = false ∧ again .timedOut = false ∧ again .cancelled = true
      ∧ (j.handle plant.env .guardEval).guardWaits 0 = true := by decide +kernel

/-- spec/05 R99: an inlet CLOSE refused with QUEUE_FULL is asked again after a new run that a hold has ended. -/
theorem test_close_owed_through_a_run :
    let j := (plant.jobs.updateAct 2 (fun a => { a with settled := .opened })).plan (fun p => { p with owedClose := true })
    let ran := ((j.startRun plant.env 1).updateAct 0 (fun a => { a with hold := some ⟨⟨0, 0⟩, 60⟩ })).askOwed plant.env
    ran.fill.owedClose = true
      ∧ ((ran.endRun plant.env 1).askOwed plant.env).queue
        = [.cmd 0 (.switch true) .fill, .cmd 2 (.position false) .fill] := by decide +kernel

/-! ## Well-formedness: an ill-formed command for each check -/

theorem test_wf_refuses_good_badCell : (Instr.badCell .line (fromLine 6 0 [])).wellFormed = false := by decide +kernel
theorem test_wf_refuses_short_cell : (Instr.forwardedCell .field [1#8]).wellFormed = false := by decide +kernel
theorem test_wf_refuses_other_kind :
    let bs := fromLine 6 0 []
    ∀ c ∈ [Instr.sample bs, .status bs, .ack bs, .fence bs, .clock bs], c.wellFormed = false := by decide +kernel
theorem test_wf_refuses_clock_as_credit : (Instr.credit (fromLine 5 0 [])).wellFormed = false := by decide +kernel
theorem test_wf_refuses_other_item :
    let bs := fromLine 4 20 [slotOf 0x30 0 0 0]
    (Instr.operatorSwitch bs).wellFormed = true
      ∧ ∀ c ∈ [Instr.operatorPosition bs, .operatorDuty bs, .operatorQuery bs, .operatorRelease bs],
        c.wellFormed = false := by decide +kernel
theorem test_wf_refuses_query_as_switch :
    (Instr.operatorSwitch (fromLine 4 20 [slotOf 0x33 0 0 0])).wellFormed = false := by decide +kernel
theorem test_wf_refuses_other_request :
    let bs := askLine 1 1 0
    (Instr.readEntry .line bs).wellFormed = true
      ∧ ∀ c ∈ [Instr.badRequestKind .line bs, .writeEntry .line bs, .readRecord .line bs, .ackCondition .line bs,
          .clearFault .line bs, .store .line bs, .recall .line bs, .restart .line bs, .setLock .line bs,
          .clearLock .line bs, .releaseTrip .line bs], c.wellFormed = false := by decide +kernel
theorem test_wf_refuses_absent_timer :
    ∀ c ∈ [Instr.staleTimerExpiry 0, .staleTimerExpiry 48, .restTimerExpiry 12, .ackTimeoutExpiry 12,
      .valveTravelExpiry 12, .holdTimerExpiry 12, .proveTimerExpiry 0, .dryTimerExpiry 3, .heaterProveTimerExpiry 4,
      .minimumTimerExpiry 24, .maximumTimerExpiry 24], c.wellFormed = false := by decide
theorem test_wf_refuses_store_as_read : (Instr.readEntry .field (ask 6 0 0 [])).wellFormed = false := by decide +kernel

/-! ## Decoding -/

/-- No row of the table gives bits, so a word spells no command. -/
theorem test_words_spell_nothing : decodeTableWord 16 0 = none ∧ decodeTableWord 144 5 = none := by decide

/-! ## Hypotheses that something meets: the machine -/

/-- The plant at every bound of the Loop interface, with a command that waits. -/
def full : State :=
  { (looped (fun l => { l with credits := 15, streak := 4, badRun := 16, lQueue := List.replicate 32 [],
                               fQueue := List.replicate 16 [] }) (flying 0 .query false)) with pending := [.secondTick] }

theorem test_hyps_StepRunsFrontCommand : plant.pending = [] := by decide

theorem test_hyps_StepKeepsLoopBounds : ∃ t, full.loop.Bounded ∧ FlightBounded full.jobs.flight ∧ step full = .next t :=
  ⟨_, by decide +kernel, by decide +kernel, rfl⟩

theorem test_hyps_StepKeepsAlertLine :
    ∃ t, full.jobs.tele.AlertFollows full.env.set.alerts ∧ full.jobs.tele.PulseFollows full.env.set.alerts
      ∧ step full = .next t :=
  ⟨_, by decide +kernel, by decide +kernel, rfl⟩

theorem test_hyps_StepKeepsSettingsLegal : ∃ t, full.SettingsLegal ∧ step full = .next t :=
  ⟨_, by decide +kernel, rfl⟩

theorem test_hyps_StepKeepsLatchedTrip :
    ∃ t, tripped.jobs.guard.Held ∧ tripped.jobs.guard.latch = true
      ∧ step { tripped with pending := [.secondTick] } = .next t :=
  ⟨_, by decide +kernel, by decide +kernel, rfl⟩

theorem test_hyps_OnlyRequestsClearLatch :
    ∃ t, tripped.powered = true ∧ tripped.jobs.guard.latch = true
      ∧ (∀ p bs r, arrivalOf .secondTick = some (p, bs) → tripped.Requested p bs r → r.kind = 11 → r.source ≠ .local)
      ∧ exec .secondTick tripped = .next t :=
  ⟨_, by decide +kernel, by decide +kernel, by intro p bs r h; simp [arrivalOf] at h, rfl⟩

/-- A RELEASE_TRIP from the line is a request of another source. -/
theorem test_hyps_OnlyRequestsClearLatch_line :
    tripped.Requested .line (askLine 11 0 0) (askedLine 11 0 0) ∧ (askedLine 11 0 0).source ≠ .local := by decide +kernel

theorem test_hyps_StepKeepsReportBounds : ∃ t, full.jobs.tele.Bounded ∧ step full = .next t := ⟨_, by decide +kernel, rfl⟩

theorem test_hyps_StepKeepsTableSizes : ∃ t, full.Shaped ∧ step full = .next t := ⟨_, by decide +kernel, rfl⟩

theorem test_hyps_CreditWaitRunsWhileStalled :
    ∃ t u, exec .secondTick plant = .next t ∧ plant.Ready ∧ t.powered = true ∧ t.jobs.work = []
      ∧ exec .powerOn (State.unpowered Store.never) = .next u ∧ u.powered = true :=
  ⟨_, _, rfl, by decide +kernel, by decide +kernel, by decide +kernel, rfl, by decide +kernel⟩

/-! ## The Loop interface -/

theorem test_hyps_OriginatedCellsAreGood :
    goodCell (fromLine 7 62 []) = true ∧ goodCell (fromLine 255 62 [slotOf 1 2 3 4, slotOf 1 2 3 4, slotOf 1 2 3 4]) = true
      ∧ (fromLine 7 62 []).length = 6 := by decide +kernel

theorem test_hyps_BadCellIsCounted :
    goodCell [1#8] = false ∧ plant.loop.badRun ≠ 15
      ∧ (looped (fun l => { l with badRun := 15 }) plant).Ready ∧ (looped (fun l => { l with badRun := 15 }) plant).Shaped := by
  decide +kernel

theorem test_hyps_FieldCellIsForwarded :
    ∀ dest ∈ [47, 48, 63], let bs := fromHead 7 dest 20 []
      goodCell bs = true ∧ cellKind bs ≠ kindSample ∧ cellKind bs ≠ kindStatus ∧ cellKind bs ≠ kindAck
        ∧ cellKind bs ≠ kindMgmtReq ∧ (dest = 63 ↔ cellDest bs = plant.env.set.general.ownAddress)
        ∧ plant.loop.lQueue.length < 32 := by decide +kernel

theorem test_hyps_LineCellIsForwarded :
    ∀ dest ∈ [20, 62, 63], let bs := fromLine 7 dest []
      goodCell bs = true ∧ cellKind bs ≠ kindCommand ∧ cellKind bs ≠ kindFence ∧ cellKind bs ≠ kindClock
        ∧ cellKind bs ≠ kindCredit ∧ cellKind bs ≠ kindMgmtReq ∧ plant.loop.fQueue.length < 16 := by decide +kernel

theorem test_hyps_LineCellIsForwarded_broadcast :
    let bs := fromLine 4 0 [slotOf 0x30 1 0 0]
    arrivalOf (.operatorSwitch bs) = some (.line, bs) ∧ goodCell bs = true ∧ cellKind bs = kindCommand
      ∧ cellDest bs = 0 := by decide +kernel

theorem test_hyps_FullQueueGivesWayToSamples :
    let old := fromHead 1 62 5 []
    let s := looped (fun l => { l with lQueue := old :: List.replicate 31 [] }) plant
    s.loop.lQueue.length = 32 ∧ cellKind old = kindSample ∧ cellKind (fromHead 2 62 20 []) = kindStatus
      ∧ full.loop.lQueue.length = 32 ∧ (∀ x ∈ full.loop.lQueue, cellKind x ≠ kindSample)
      ∧ 16 ≤ full.loop.fQueue.length := by decide +kernel

theorem test_hyps_CreditCellSetsCount :
    ∀ dest ∈ [63, 0], ∀ x ∈ [slotOf 0x41 1 0 0, slotOf 0x41 15 1 0, slotOf 0x41 0 0 0, slotOf 0x41 16 0 0, slotOf 0x41 5 2 0],
      let bs := fromLine 6 dest [x]
      goodCell bs = true ∧ cellKind bs = kindCredit ∧ (cellDest bs = plant.env.set.general.ownAddress ∨ cellDest bs = 0)
        ∧ slotsWith 0x41 bs = [x] ∧ slotsWith 0x41 (fromLine 6 dest []) = [] := by decide +kernel

/-- A credit, a READY urgent cell and, with `n` cells in the forwarded queue, a streak. -/
def sending (n streak : Nat) (turn : Turn) : State :=
  looped (fun l => { l with credits := 1, lQueue := List.replicate n [], streak := streak, turn := turn }) plant

theorem test_hyps_LineSendFollowsArbiter :
    (sending 0 0 .forward).Ready ∧ (sending 0 0 .forward).Shaped ∧ (sending 0 0 .forward).jobs.tele.urgent.ready = true
      ∧ (sending 1 4 .forward).Ready ∧ (sending 1 4 .forward).loop.lTx = none ∧ 0 < (sending 1 4 .forward).loop.credits
      ∧ ¬ (sending 1 4 .forward).loop.lQueue = []
      ∧ plant.loop.credits = 0 := by decide +kernel

/-- A command that waits for pump 1. -/
def waiting : State := plant.tally (fun j => { j with queue := [.cmd 0 .query .fill] })

theorem test_hyps_FieldSendIssuesCommandFirst :
    waiting.Ready ∧ waiting.Shaped ∧ waiting.loop.fTx = none ∧ waiting.jobs.ready = some (0, .query, .fill)
      ∧ plant.jobs.ready = none ∧ plant.loop.fQueue = [] := by decide +kernel

theorem test_hyps_FieldSendIssuesCommandFirst_busy :
    (looped (fun l => { l with fTx := some [] }) plant).Ready ∧ (looped (fun l => { l with fQueue := [[]] }) plant).Ready := by
  decide +kernel

theorem test_hyps_TransmitCompletionFreesPort : full.powered = true ∧ plant.Ready := by decide +kernel

theorem test_hyps_CreditWaitExpiryRaisesLineStalled :
    plant.Ready ∧ plant.Shaped ∧ plant.loop.creditWait ≠ none ∧ plant.jobs.active .lineStalled = false
      ∧ (looped (fun l => { l with creditWait := none }) plant).Ready := by decide +kernel

/-! ## Intake and the Level unit -/

theorem test_hyps_SampleUpdatesHeadRecord :
    ∀ src ∈ [5, 10], let bs := fromHead 1 62 src [slotOf 1 0 1 0, slotOf 0x0F 3 0 0]
      goodCell bs = true ∧ cellKind bs = kindSample
        ∧ (src = 5 → plant.env.set.known (cellSource bs) = true)
        ∧ (src = 10 → plant.env.set.known (cellSource bs) = false) := by decide +kernel

/-- A head whose stale timer runs. -/
def timed (a : Nat) : State := { plant with env := plant.env.updateHead a (fun r => { r with stale := some 30 }) }

theorem test_hyps_StaleExpiryMakesHeadStale :
    ∀ a ∈ [5, 40], (timed a).Shaped ∧ (timed a).powered = true ∧ ((timed a).env.head a).stale ≠ none
      ∧ (timed a).env.set.known a = true ∧ (plant.env.head a).stale = none := by decide +kernel

theorem test_hyps_FusionFollowsGauges :
    let g := fun n => gaugeLevel 30000 n false
    apart (g 30000).level (g 29850).level ≤ plantSet.general.agreeTol
      ∧ plantSet.general.agreeTol < apart (g 30000).level (g 29849).level ∧ (g 30001).level ≤ 30000 := by decide

theorem test_hyps_VolumeFollowsStrapping :
    plantSet.strappingOk = true ∧ 2 ≤ plantSet.pointsInUse ∧ plantSet.pointsInUse ≤ plantSet.points.length := by decide

/-- The split timer runs. -/
def parting : State := plant.tally (fun j => { j with level := { j.level with split := some 9 } })

theorem test_hyps_SplitExpiryRaisesGaugeSplit :
    parting.Ready ∧ parting.Shaped ∧ parting.jobs.level.split ≠ none ∧ plant.jobs.level.split = none := by decide +kernel

/-! ## The Actuator unit -/

theorem test_hyps_StatusSetsReportedState :
    let bs := fromHead 2 62 20 [slotOf 0x20 7 100 0, slotOf 0x20 8 0 0]
    plant.Shaped ∧ goodCell bs = true ∧ cellKind bs = kindStatus ∧ plant.env.set.actAt (cellSource bs) = some 0
      ∧ (slotsWith 0x20 bs).any (fun x => (stateCodeOf x.field1).isSome) = true
      ∧ plant.env.set.actAt (cellSource (fromHead 2 62 5 [])) = none := by decide +kernel

theorem test_hyps_AckAnswersFlightEntry :
    let bs := fromHead 3 63 22 [slotOf 0x21 0x31 5 0]
    let s := flying 2 (.position true) false
    s.Shaped ∧ goodCell bs = true ∧ cellKind bs = kindAck ∧ cellDest bs = s.env.set.general.ownAddress
      ∧ s.env.set.actAt (cellSource bs) = some 2
      ∧ (∃ x, slotsWith 0x21 bs = [x] ∧ stateCodeOf x.field2 = some .moving ∧ (Action.position true).code = x.field1)
      ∧ (s.jobs.flightOf 2).map (·.travelling) = some false
      ∧ ((flying 2 (.position true) true).jobs.flightOf 2).map (·.travelling) = some true
      ∧ plant.jobs.flightOf 2 = none ∧ plant.env.set.actAt (cellSource (fromHead 3 63 5 [])) = none := by
  refine ⟨by decide +kernel, by decide +kernel, by decide +kernel, by decide +kernel, by decide +kernel,
    ⟨slotOf 0x21 0x31 5 0, by decide +kernel⟩, by decide +kernel, by decide +kernel, by decide +kernel, by decide +kernel⟩

theorem test_hyps_EndedEntryTellsItsOrigin :
    let f : Flight := ⟨2, .position true, .fill, false, 5⟩
    (flying 2 (.position true) false).jobs.flightOf 2 = some f ∧ f.travelling = false
      ∧ f.action.code = (slotOf 0x21 0x31 5 0).field1 ∧ stateCodeOf (slotOf 0x21 0x31 5 0).field2 = some .moving
      ∧ stateCodeOf (slotOf 0x21 0x31 4 0).field2 = some .opened ∧ stateCodeOf (slotOf 0x21 0x31 0 0).field2 = some .unknown := by
  decide +kernel

/-- A STATUS in either phase, at the position asked, at JAMMED and at another state. -/
theorem test_hyps_EndedEntryTellsItsOrigin_status :
    ∀ travelling ∈ [false, true], let j := (flying 2 (.position true) travelling).jobs
      2 < j.acts.length ∧ j.flightOf 2 = some ⟨2, .position true, .fill, travelling, 5⟩
        ∧ stateCodeOf (slotOf 0x20 4 0 0).field1 = some .opened ∧ stateCodeOf (slotOf 0x20 6 0 0).field1 = some .jammed
        ∧ stateCodeOf (slotOf 0x20 5 0 0).field1 = some .moving ∧ (plantSet.act 2).kind ≠ .heater := by decide +kernel

theorem test_hyps_TimeoutsEndFlightEntry :
    ∀ i ∈ [0, 11], (flying i .query false).Shaped ∧ ((flying i .query false).jobs.flightOf i).map (·.travelling) = some false
      ∧ ((flying i (.position true) true).jobs.flightOf i).map (·.travelling) = some true := by decide +kernel

theorem test_hyps_OperatorCommandIsQueued :
    Intercepted (fromLine 4 20 [slotOf 0x30 0 0 0]) plant 0 [.switch 0]
      ∧ plant.jobs.operatorChecks plant.env 0 (.switch 0) = none ∧ plant.jobs.RoomFor 0
      ∧ Intercepted (fromLine 4 22 [slotOf 0x31 1 0 0]) plant 2 [.position 1]
      ∧ plant.jobs.operatorChecks plant.env 2 (.position 1) = none ∧ plant.jobs.RoomFor 2
      ∧ Intercepted (fromLine 4 24 [slotOf 0x32 255 0 0]) plant 3 [.duty 255]
      ∧ plant.jobs.operatorChecks plant.env 3 (.duty 255) = none ∧ plant.jobs.RoomFor 3 := by decide +kernel

/-- Pump 1 claimed by the operator. -/
def claimed : State := plant.tally (Jobs.updateClaim 0 (fun c => { c with operator := true }))

theorem test_hyps_OperatorCommandIsQueued_leaves :
    (plantSet.act 0).kind = .pump ∧ 0 < claimed.jobs.acts.length ∧ plantSet.pumpNumber 0 = some 1
      ∧ (claimed.jobs.claim 0).operator = true ∧ (plant.jobs.claim 0).operator = false
      ∧ plantSet.general.minRest ≠ 0 ∧ (plantSet.act 3).kind = .heater := by decide +kernel

/-- The plant with a cap of 0: nothing can be granted. -/
def unpaid : State := plant.tally (fun j => { j with power := { j.power with cap := 0 } })

theorem test_hyps_OperatorStartNeedsFullGrant :
    let after := fun (s : State) => (lineCounted s).jobs.postOperator s.env 1
    Intercepted (fromLine 4 20 [slotOf 0x30 1 0 0]) plant 0 [.switch 1]
      ∧ plant.jobs.operatorChecks plant.env 0 (.switch 1) = none ∧ plant.env.set.pumpNumber 0 = some 1
      ∧ (plant.env.set.act 0).rated ≤ ((after plant).claim 0).granted ∧ (after plant).RoomFor 0
      ∧ unpaid.Ready ∧ ((after unpaid).claim 0).granted < (unpaid.env.set.act 0).rated := by decide +kernel

theorem test_hyps_OperatorQueryIsQueued :
    Intercepted (fromLine 4 20 [slotOf 0x33 0 0 0]) plant 0 [.query] ∧ (plant.env.set.act 0).manual = false
      ∧ plant.jobs.RoomFor 0 := by decide +kernel

theorem test_hyps_ManualActuatorRefusesOperator :
    Intercepted (fromLine 4 23 [slotOf 0x31 1 0 0]) plant 4 [.position 1] ∧ (plant.env.set.act 4).manual = true := by
  decide +kernel

/-- Pump 1 under an operator hold. -/
def held : State := pump1 (fun a => { a with hold := some ⟨⟨0, 0⟩, 60⟩, parked := some (.query, .fill) })

theorem test_hyps_HoldEndsByReleaseOrExpiry :
    held.Ready ∧ held.Shaped ∧ Intercepted (fromLine 4 20 [slotOf 0x34 0 0 0]) held 0 [.release]
      ∧ (held.jobs.act 0).hold ≠ none ∧ (plant.jobs.act 0).hold = none := by decide +kernel

theorem test_hyps_FenceJoinsQueue :
    (∀ dest ∈ [63, 0, 20], let bs := fromLine 10 dest []
      goodCell bs = true ∧ cellKind bs = kindFence
        ∧ (cellDest bs = plant.env.set.general.ownAddress ∨ cellDest bs = 0
          ∨ (plant.env.set.governedAt (cellDest bs)).isSome = true))
      ∧ (flying 0 .query false).Ready ∧ (flying 0 .query false).jobs.flight ≠ [] ∧ waiting.Ready
      ∧ plant.jobs.queue = [] ∧ plant.jobs.flight = [] ∧ plant.jobs.active .queueFull = false
      ∧ (plant.tally (fun j => { j with queue := List.replicate 16 (.cmd 0 .query .fill) })).Ready := by decide +kernel

/-- Pump 1 resting. -/
def resting : State := pump1 (fun a => { a with rest := some 300 })

theorem test_hyps_RestTimerBarsAndFreesPump :
    resting.Ready ∧ (resting.jobs.act 0).rest ≠ none ∧ (plant.jobs.act 0).rest = none
      ∧ (resting.env.set.act 0).kind = .pump ∧ (resting.env.set.act 0).manual = false
      ∧ (resting.jobs.act 0).hold = none ∧ resting.jobs.guard.latch = false ∧ resting.jobs.guard.band ≠ .highHigh := by
  decide +kernel

theorem test_hyps_GuardGroupGoesFirst :
    let q : List QueueItem := [.cmd 0 (.switch false) .guard, .fence true, .cmd 1 .query .fill, .fence false]
    ∀ x ∈ q.dropWhile QueueItem.isGuard, x.isGuard = false := by decide

/-- A full queue with guard items first, and a command that waits. -/
def crowded : State :=
  { plant.tally (fun j => { j with
      queue := [.cmd 0 (.switch false) .guard, .cmd 1 (.switch false) .guard, .fence true, .cmd 2 (.position false) .guard]
        ++ List.replicate 12 (.fence false) }) with pending := [.secondTick] }

theorem test_hyps_GuardGroupGoesFirst_step : ∃ t, crowded.QueueKept ∧ crowded.jobs.queue.length = 16 ∧ step crowded = .next t :=
  ⟨_, by decide +kernel, by decide +kernel, rfl⟩

/-! ## The clock and the Fill controller -/

theorem test_hyps_ClockCellSetsTime :
    ∀ dest ∈ [63, 0], ∀ x ∈ [slotOf 0x40 39 95 59, slotOf 0x40 39 96 0, slotOf 0x40 0 0 60],
      let bs := fromLine 5 dest [x]
      goodCell bs = true ∧ cellKind bs = kindClock ∧ slotsWith 0x40 bs = [x]
        ∧ (cellDest bs = plant.env.set.general.ownAddress ∨ cellDest bs = 0) := by decide +kernel

/-- The plant at a second of the week. -/
def atTime (t : TimeOfWeek) : State := { plant with env := { plant.env with clock := { plant.env.clock with tow := t } } }

theorem test_hyps_SecondTickMovesTime :
    ∀ t ∈ [TimeOfWeek.mk 10079 58, ⟨10079, 59⟩], (atTime t).Ready ∧ (atTime t).Shaped := by decide +kernel

/-- A set clock with its stale timer running. -/
def synced : State :=
  { plant with env := { plant.env with clock := { plant.env.clock with state := .synced, stale := some 9 } } }

theorem test_hyps_TariffStateFollowsClock :
    synced.Shaped ∧ synced.env.clock.stale ≠ none ∧ plant.env.clock.stale = none ∧ synced.env.clock.state ≠ .unset
      ∧ (TariffEntry.holds { TariffEntry.factory with used := true, start := 10000, stop := 60 } 10000) = true
      ∧ (TariffEntry.holds { TariffEntry.factory with used := true, start := 10000, stop := 60 } 60) = false := by
  decide +kernel

/-- A run of pump 1 in a phase, with its two timers. -/
def running (p : RunPhase) (prove dry : Timer) : State :=
  plant.tally (Jobs.updateRun 1 (fun _ => { phase := p, metered := true, prove := prove, dry := dry }))

/-- The inlet meter is LIVE. -/
def metered (s : State) : State := { s with env := s.env.updateHead 9 (fun r => { r with state := .live }) }

theorem test_hyps_PumpTimersFaultPump :
    (running .proving (some 5) none).Ready ∧ (running .proving (some 5) none).env.inletLive = false
      ∧ (metered (running .proving (some 5) none)).Ready ∧ (metered (running .proving (some 5) none)).Shaped
      ∧ (metered (running .proving (some 5) none)).env.inletLive = true
      ∧ ((running .proved none (some 5)).jobs.run 1).dry ≠ none ∧ plant.env.set.pump 1 = some 0
      ∧ plant.env.set.pump 2 = some 1 ∧ (plant.jobs.run 1).prove = none ∧ (plant.jobs.run 1).dry = none := by decide +kernel

theorem test_hyps_CommittedFromMustStart :
    let e : Env := { plant.env with clock := { plant.env.clock with
      tow := ⟨10000, 0⟩, tariff := { band := .cheap, window := some ⟨0, 10000, 60⟩, cap := 0, target := some 9 } } }
    let j := plant.jobs.plan (fun p => { p with window := some (0, .cheap) })
    e.clock.tariff.window = some ⟨0, 10000, 60⟩ ∧ j.fill.cheap = true ∧ e.clock.tow.minute < 10080
      ∧ (e.clock.tow.minute + 10080 - 10000) % 10080 < (60 + 10080 - 10000) % 10080 := by decide +kernel

/-! ## The Overflow guard, the Frost unit and the Power allotment -/

theorem test_hyps_BandFollowsLevel :
    plant.jobs.level.fusion = .blind ∧ plant.jobs.guard.float ≠ .wet ∧ plant.jobs.guard.latch = false
      ∧ tripped.jobs.guard.latch = true
      ∧ plantSet.guard.boundary .highHigh = 29000 ∧ GuardBand.normal.code < GuardBand.highHigh.code := by decide +kernel

/-- A tripped plant whose level is known and low, with the float state given. -/
def settled (f : FloatState) : State :=
  guarded (fun g => { g with float := f })
    (tripped.tally (fun j => { j with level := { j.level with fusion := .agree, fill := 9, guard := 28499 } }))

theorem test_hyps_ReleaseNeedsSafety :
    let bs := ask 11 0 0 []
    let r := asked 11 0 0 []
    (∀ s ∈ [plant, tripped, settled .dry, settled .none, settled .wet, settled .unknown],
        s.Ready ∧ s.Requested .field bs r) ∧ r.kind = 11 ∧ r.source = .local
      ∧ (settled .dry).jobs.level.guard < (settled .dry).env.set.guard.high
      ∧ (settled .dry).env.set.guard.high < (settled .dry).env.set.guard.hihi
      ∧ (settled .dry).jobs.tele.conds.length = 22 := by decide +kernel

theorem test_hyps_BlindStartRaisesLevelBlind :
    plant.jobs.guard.blindStart ≠ none ∧ plant.jobs.level.fusion = .blind ∧ plant.jobs.tele.conds.length = 22
      ∧ (settled .dry).jobs.guard.blindStart ≠ none ∧ (settled .dry).jobs.level.fusion ≠ .blind
      ∧ (guarded (fun g => { g with blindStart := none }) plant).Ready := by decide +kernel

theorem test_hyps_EffectiveTemperature :
    ∀ z ∈ [0], z < plant.jobs.frost.zones.length ∧ plant.env.set.fitted z = true := by decide +kernel

theorem test_hyps_CurveFollowsTemperature :
    let s := ZoneSettings.factory
    s.b2 < s.b1 ∧ s.b3 < s.b2 ∧ s.b4 < s.b3 ∧ s.mode = .stage ∧ s.rawSegment (-40) = 3 ∧ s.lower 3 + s.h ≤ -40 := by decide

/-- The heater of zone 0 proving. -/
def heating : State := plant.tally (Jobs.updateZone 0 (fun z => { z with proving := .proving, timer := some 5 }))

theorem test_hyps_HeaterProveExpiryFailsHeater :
    heating.Ready ∧ heating.Shaped ∧ (heating.jobs.zone 0).timer ≠ none ∧ (heating.jobs.zone 0).proving ≠ .idle
      ∧ heating.env.set.heater 0 = some 3 ∧ (plant.jobs.zone 3).timer = none := by decide +kernel

theorem test_hyps_WalkNeverExceedsCap :
    let claims := List.replicate 6 { Claim.powerOn with cls := .critical, requested := 180 }
    (walk plantSet 200 claims).1.map (·.granted) = [0, 0, 180, 0, 0, 0] := by decide +kernel

/-! ## Conditions, reports and management -/

theorem test_hyps_ConditionMoves :
    plant.jobs.tele.conds.length = 22 ∧ (plant.jobs.tele.cond .pumpFault).active = false
      ∧ (plant.jobs.tele.cond .settingsLost).active = true ∧ (plant.jobs.tele.cond .settingsLost).acked = false
      ∧ (teleEnv tripped.env tripped.jobs).latch = true := by decide +kernel

/-- Timers of the Report unit running: the pulse, those of entry 23, and both pack holds. -/
def reporting : State :=
  plant.tally (fun j => { j with tele := { (j.tele.updatePolicy 23 (fun p =>
    { p with minTimer := some 5, maxTimer := some 9 })) with
      pulse := some 1500, ahead := some { j.tele.opened with hold := some 2 } } })

theorem test_hyps_ReportTimersExpire :
    reporting.Ready ∧ reporting.jobs.tele.pulse ≠ none ∧ (reporting.jobs.tele.policy 23).minTimer ≠ none
      ∧ (reporting.jobs.tele.policy 23).maxTimer ≠ none ∧ (reporting.jobs.tele.policy 23).due = false
      ∧ reporting.jobs.tele.opened.hold ≠ none ∧ reporting.jobs.tele.ahead ≠ none ∧ plant.jobs.tele.pulse = none
      ∧ (plant.jobs.tele.policy 0).minTimer = none ∧ plant.jobs.tele.ahead = none := by decide +kernel

/-- The Report unit at rest, with what waits for packing given. -/
def packing (f : Tele → Tele) : Tele :=
  f { plant.jobs.tele with urgentDue := [], notices := [], due := [], urgent := .empty, opened := .empty, ahead := none }

theorem test_hyps_ReportTimersExpire_pack :
    let full : ReportCell := { ReportCell.empty with items := List.replicate 3 (.policy 0 0), ready := true }
    (packing (fun t => { t with urgentDue := [.clockUnset] })).urgent.hasKind .clockUnset = false
      ∧ (packing (fun t => { t with notices := [.condition .queueFull] })).opened.hasKind .queueFull = false
      ∧ (packing (fun t => { t with due := [0, 23], opened := full })).opened.items.length = 3
      ∧ ((packing (fun t => { t with due := [0, 23], opened := full })).ahead.getD .empty).hasPolicy 0 = false
      ∧ (packing (fun t => { t with due := [0, 23] })).opened.hasPolicy 23 = false := by decide +kernel

/-- A STORE in flight. -/
def storing : State := plant.tally (Jobs.stored (Store.begin plantSet))

/-- The lock set. -/
def locked : State := { plant with env := { plant.env with set := { plantSet with lock := true } } }

theorem test_hyps_FailedRequestChangesNothing :
    (∀ k ∈ [0, 12, 15, 9, 10, 11], plant.Requested .line (askLine k 0 0) (askedLine k 0 0) ∧ (askedLine k 0 0).kind = k)
      ∧ (∀ id ∈ [0, 11], plant.Requested .line (askLine 1 id 0) (askedLine 1 id 0) ∧ (askedLine 1 id 0).id = id)
      ∧ plant.Requested .line (askLine 3 9 0) (askedLine 3 9 0) ∧ plant.Requested .line (askLine 4 0 22) (askedLine 4 0 22)
      ∧ plant.Requested .line (askLine 5 0 12) (askedLine 5 0 12) ∧ (askedLine 5 0 12).index = 12
      ∧ storing.Ready ∧ storing.jobs.store.storing ≠ none ∧ storing.Requested .field (ask 8 0 0 []) (asked 8 0 0 [])
      ∧ locked.Ready ∧ locked.Requested .line (askLine 7 0 0) (askedLine 7 0 0) ∧ locked.env.set.lock = true := by
  decide +kernel

/-- The checks on tables, entries, protection and values. -/
theorem test_hyps_FailedRequestChangesNothing_tables :
    plant.Requested .line (askLine 1 2 48) (askedLine 1 2 48) ∧ plant.Requested .line (askLine 3 1 1) (askedLine 3 1 1)
      ∧ storing.Requested .line (askLine 2 1 0) (askedLine 2 1 0) ∧ storing.Requested .field (ask 9 0 0 []) (asked 9 0 0 [])
      ∧ (asked 9 0 0 []).source = .local ∧ locked.Requested .line (askLine 2 1 0) (askedLine 2 1 0)
      ∧ plant.Requested .field (ask 2 1 0 []) (asked 2 1 0 []) ∧ (asked 2 1 0 []).data.length < 2 := by decide +kernel

/-- What exists and what is barred, at the boundaries. -/
theorem test_hyps_FailedRequestChangesNothing_bounds :
    entryExists .heads 47 3 ∧ ¬ entryExists .heads 48 0 ∧ entryExists .general 0 3 ∧ ¬ entryExists .general 0 4
      ∧ recordExists 8 0 6 ∧ ¬ recordExists 8 0 7 ∧ ¬ recordExists 1 1 0 ∧ writeBarred .general 0 True True
      ∧ ¬ writeBarred .general 0 False True ∧ writeBarred .policy 2 False False ∧ ¬ writeBarred .policy 1 True True := by
  simp [entryExists, recordExists, writeBarred]

/-- A request from a head that is no service terminal has no source, and one without a slot no header. -/
theorem test_hyps_FailedRequestChangesNothing_discarded :
    ∀ bs ∈ [fromHead 8 63 5 [slotOf 1 1 0 7], fromHead 8 63 40 []],
      arrivalOf (.readEntry .field bs) = some (.field, bs) ∧ goodCell bs = true ∧ cellKind bs = kindMgmtReq
        ∧ cellDest bs = plant.env.set.general.ownAddress ∧ requestOf plant.env.set .field bs = none := by decide +kernel

theorem test_hyps_ReadsAnswerGroup :
    plant.Requested .field (ask 1 1 0 []) (asked 1 1 0 []) ∧ tableOf (asked 1 1 0 []).id = some .general
      ∧ (entryGroup plant.env plant.jobs .general 0 0).isSome = true
      ∧ plant.Requested .line (askLine 3 8 0) (askedLine 3 8 0)
      ∧ (recordGroup plant.env plant.jobs 8 0 0).isSome = true := by decide +kernel

/-- The bytes of a GENERAL group 0 that differs from the factory's. -/
def newGeneral : List Byte := [61#8, 0#8, 30#8, 48#8, 1#8, 44#8, 0#8, 10#8]

theorem test_hyps_ReadReturnsWhatWasWritten :
    newGeneral.length = 8 ∧ plant.env.set.Shaped ∧ (writeTable plantSet .general 0 0 newGeneral).isSome = true
      ∧ (writeTable plantSet .zones 4 0 [2#8, 88#8, 3#8, 0#8, 5#8, 160#8, 50#8, 20#8]).isSome = true := by decide +kernel

theorem test_hyps_WriteTakesSettings :
    let r := asked 2 1 0 (slotsOf newGeneral)
    plant.Requested .field (ask 2 1 0 (slotsOf newGeneral)) r ∧ r.kind = 2 ∧ tableOf r.id = some .general
      ∧ firstFailure plant.env plant.jobs r = none ∧ (r.write plant.env.set).isSome = true
      ∧ plant.Requested .field (ask 10 0 0 []) (asked 10 0 0 []) ∧ plant.jobs.store.storing = none
      ∧ plant.jobs.store.waiting = false := by decide +kernel

theorem test_hyps_AckAndClearFaultAct :
    plant.Requested .line (askLine 4 0 21) (askedLine 4 0 21) ∧ condKinds[(askedLine 4 0 21).index]? = some .pumpFault
      ∧ (pump1 (fun a => { a with fault := .noFlow })).Ready ∧ (pump1 (fun a => { a with fault := .noFlow })).Shaped
      ∧ (pump1 (fun a => { a with fault := .noFlow })).Requested .field (ask 5 0 0 []) (asked 5 0 0 [])
      ∧ plant.env.set.actInUse 0 = true ∧ (plant.jobs.act 11).fault = .none := by decide +kernel

/-- What the settings store does, as given. -/
def storeIs (f : Store → Store) : State := plant.tally (Jobs.stored f)

theorem test_hyps_StoreCopiesSettings :
    plant.Requested .field (ask 6 0 0 []) (asked 6 0 0 []) ∧ plant.jobs.store.writing = none
      ∧ (storeIs (fun x => { x with writing := some true })).Ready
      ∧ (storeIs (fun x => { x with writing := some true, waiting := true })).Ready
      ∧ (storeIs (fun x => { x with writeAsked := true })).Ready ∧ (storeIs (fun x => { x with waiting := true })).Ready
      ∧ (storeIs (fun x => { x with storing := some plantSet, asker := some ⟨.line, 62, 6, 0, 7⟩ })).Ready := by
  decide +kernel

/-- A word write asked for while a store or a write is made, and with a STORE that waits. -/
theorem test_hyps_StoreCopiesSettings_asked :
    (storeIs (fun x => { x with storing := some plantSet, writeAsked := true })).Ready
      ∧ ∀ further ∈ [false, true],
        (storeIs (fun x => { x with writing := some true, waiting := true, writeAsked := true, further := further })).Ready
          ∧ (storeIs (fun x => { x with waiting := true, writeAsked := true, further := further })).Ready := by
  decide +kernel

theorem test_hyps_ResetsKeepWhatTheyShould :
    let saved := storeIs (fun x => { x with image := some plantSet, complete := true })
    saved.Requested .field (ask 8 0 0 []) (asked 8 0 0 []) ∧ saved.Requested .field (ask 7 0 0 []) (asked 7 0 0 [])
      ∧ plantSet.actInUse 0 = true ∧ (plantSet.act 0).kind = .pump ∧ plantSet.actInUse 11 = false
      ∧ saved.jobs.store.complete = true ∧ saved.jobs.store.image = some plantSet ∧ plant.jobs.store.image = none
      ∧ (State.unpowered Store.never).powered = false := by decide +kernel

end Sys2Proof.Tests
end

section
/-!
PROOFS. One command at a time: the meaning of every command is a supply change or an effect on a part that has power, and a
settling leaves no pump start barred and the discord marks as R77 leaves them (log 2).
-/

namespace Sys2Proof.Machine

/-! ## The effect of a command -/

/-- What a command other than the supply's does on a part that has power, before the CREDIT_WAIT timer follows. -/
def effectOf : Instr → State → State
  | .deferredStoreBegin => State.deferredStore
  | .storeCompletion => State.storeCompletes
  | .latchWordWriteDeferred => State.deferredWrite
  | .latchWordWriteCompletion => State.wordCompletes
  | .transmitCompletion port => State.transmitted port
  | .lPortSendBegin => State.lineArbiter
  | .fPortSendBegin => State.fieldArbiter
  | .secondTick => State.change tick
  | .minuteBoundary => State.change minuteTick
  | .creditWaitExpiry => State.creditWaitExpiry
  | .staleTimerExpiry address => State.change (staleExpiry address)
  | .splitTimerExpiry => State.work Jobs.splitExpiry
  | .restTimerExpiry i => State.work (fun _ j => j.restExpiry i)
  | .ackTimeoutExpiry i => State.work (fun e j => j.ackTimeout e i)
  | .valveTravelExpiry i => State.work (fun e j => j.travelTimeout e i)
  | .holdTimerExpiry i => State.work (fun e j => j.holdExpiry e i)
  | .clockStaleExpiry => State.change clockStaleExpiry
  | .proveTimerExpiry pump => State.work (fun e j => j.proveExpiry e pump)
  | .dryTimerExpiry pump => State.work (fun e j => j.dryExpiry e pump)
  | .blindStartTimerExpiry => State.work Jobs.blindStartExpiry
  | .heaterProveTimerExpiry zone => State.work (fun e j => j.heaterProveExpiry e zone)
  | .pulseTimerExpiry => State.work (Jobs.tele' (fun _ t => t.pulseExpiry))
  | .minimumTimerExpiry entry => State.work (Jobs.tele' (fun v t => t.minimumExpiry v entry))
  | .maximumTimerExpiry entry => State.work (Jobs.tele' (fun v t => t.maximumExpiry v entry))
  | .packHoldExpiry cell => State.work (Jobs.tele' (fun _ t => t.packHoldExpiry cell))
  | c => match arrivalOf c with
      | some (p, bs) => State.arrive p bs
      | none => id

/-- The arrival of a cell is decided by its port and its bytes, whatever the row (log 6). -/
theorem exec_arrival {c : Instr} {p : Port} {bs : List Byte} (h : arrivalOf c = some (p, bs)) (s : State) :
    exec c s = .next (s.powerCommand (State.arrive p bs)) := by
  cases c <;> cases h <;> rfl

/-- Every command has a next state: the supply's two, and an effect on a part that has power. -/
theorem exec_eq (c : Instr) (s : State) :
    exec c s = .next (if c = .powerOn then s.powerUp else if c = .powerLoss then s.powerDown
      else s.powerCommand (effectOf c)) := by
  cases c <;> rfl

/-- A command on a part that is ready does its effect at once. -/
theorem exec_ready {c : Instr} {s : State} (h : s.Ready) (hon : c ≠ .powerOn) (hoff : c ≠ .powerLoss) :
    exec c s = .next (effectOf c s).creditWatch := by
  rw [exec_eq, if_neg hon, if_neg hoff, State.powerCommand_settled h]

/-- The part once what an earlier command left to be told has been taken (log 2). -/
def State.settled (s : State) : State := s.withPart (s.env, s.jobs.settle s.env)

@[simp] theorem State.settled_env (s : State) : s.settled.env = s.env := rfl
@[simp] theorem State.settled_loop (s : State) : s.settled.loop = s.loop := rfl
@[simp] theorem State.settled_jobs (s : State) : s.settled.jobs = s.jobs.settle s.env := rfl

/-- A command on a part that has power. -/
theorem exec_powered {c : Instr} {s : State} (h : s.powered = true) (hon : c ≠ .powerOn) (hoff : c ≠ .powerLoss) :
    exec c s = .next (effectOf c s.settled).creditWatch := by
  rw [exec_eq, if_neg hon, if_neg hoff]
  unfold State.powerCommand
  rw [if_pos h]
  rfl

/-! ## What a settling leaves -/

/-- The records that R77 reads decide whether the discord marks are settled. -/
theorem Jobs.DiscordSettled.congr {e : Env} {j j' : Jobs} (h : j.DiscordSettled e) (hq : j'.queue = j.queue)
    (ha : j'.acts = j.acts) (ht : j'.active .actuatorDiscord = j.active .actuatorDiscord) : j'.DiscordSettled e := by
  have hact : ∀ i, j'.act i = j.act i := fun i => by unfold Jobs.act; rw [ha]
  refine ⟨fun i hi hm => ?_, ?_⟩
  · rw [Jobs.commanded_congr hq ha, hact]
    exact h.1 i hi (hact i ▸ hm)
  · rw [ht]
    simpa only [hact] using h.2

/-- R150: after a clear of a kind other than OVERFLOW_TRIP the kind is inactive. -/
theorem Tele.clear_active {v : TeleEnv} {k : CondKind} (hk : k ≠ .overflowTrip) (t : Tele) :
    ((t.clear v k).cond k).active = false := by
  cases ha : (t.cond k).active with
  | false =>
    have hc : t.clear v k = t := by unfold Tele.clear; rw [if_pos (by simp [ha])]
    rw [hc, ha]
  | true =>
    have hlen : k.code < t.conds.length := by
      by_contra hl
      rw [Tele.cond, List.getD_eq_default _ _ (Nat.le_of_not_lt hl)] at ha
      cases ha
    have hself : ∀ f : Cond → Cond, (t.updateCond k f).cond k = f (t.cond k) := fun f => updateAt_getD_self f _ _ _ hlen
    have hflag : ((t.clear v k).flags k).1 = false := by
      unfold Tele.clear
      rw [if_neg (by simp [ha, hk])]
      dsimp only
      rw [(Tele.same_report v k _).flags k]
      split
      · rw [Tele.flags_deriveAlert]; simp only [Tele.flags, hself]
      · simp only [Tele.flags, hself]
    exact hflag

/-- R77: the mark of one actuator cleared where its states agree again: one step of `Jobs.discordTest`. -/
def Jobs.unmark (j : Jobs) (i : Nat) : Jobs :=
  if (j.act i).discord && agrees (j.commanded i) (j.act i).reported then
    j.updateAct i (fun a => { a with discord := false }) else j

theorem Jobs.discordTest_eq (e : Env) (j : Jobs) :
    j.discordTest e =
      if (List.range Config.actuatorCount).any (fun i =>
          e.set.actInUse i && (((List.range Config.actuatorCount).foldl Jobs.unmark j).act i).discord) then
        (List.range Config.actuatorCount).foldl Jobs.unmark j
      else ((List.range Config.actuatorCount).foldl Jobs.unmark j).clear e .actuatorDiscord := rfl

@[simp] theorem Jobs.unmark_queue (j : Jobs) (i : Nat) : (j.unmark i).queue = j.queue := by
  unfold Jobs.unmark; split <;> rfl

/-- A step of the test moves no more than a discord mark. -/
theorem Jobs.unmark_act (j : Jobs) (i k : Nat) :
    (j.unmark i).act k = j.act k ∨ (j.unmark i).act k = { j.act k with discord := false } := by
  unfold Jobs.unmark
  split
  · exact j.act_updateAct i k _
  · exact .inl rfl

theorem Jobs.unmark_commanded (j : Jobs) (i k : Nat) : (j.unmark i).commanded k = j.commanded k := by
  unfold Jobs.commanded
  rw [Jobs.unmark_queue]
  rcases j.unmark_act i k with h | h <;> rw [h]

theorem Jobs.unmark_reported (j : Jobs) (i k : Nat) : ((j.unmark i).act k).reported = (j.act k).reported := by
  rcases j.unmark_act i k with h | h <;> rw [h]

theorem Jobs.discord_of_unmark {j : Jobs} {i k : Nat} (h : ((j.unmark i).act k).discord = true) :
    (j.act k).discord = true := by
  rcases j.unmark_act i k with hk | hk <;> rw [hk] at h
  · exact h
  · cases h

/-- The actuator's own step leaves its mark only where the states disagree. -/
theorem Jobs.disagrees_of_unmark {j : Jobs} {i : Nat} (h : ((j.unmark i).act i).discord = true) :
    agrees (j.commanded i) (j.act i).reported = false := by
  have hd := Jobs.discord_of_unmark h
  by_contra ha
  unfold Jobs.unmark at h
  rw [if_pos (by rw [hd, Bool.true_and]; exact Bool.eq_true_of_not_eq_false ha)] at h
  by_cases hl : i < j.acts.length
  · rw [Jobs.act, Jobs.updateAct_acts, updateAt_getD_self _ _ _ _ hl] at h
    cases h
  · rw [Jobs.act, List.getD_eq_default _ _ (Nat.le_of_not_lt hl)] at hd
    cases hd

/-- The steps for a run of actuators leave each of them a mark only where the states disagree. -/
theorem Jobs.foldl_unmark (l : List Nat) (j : Jobs) (k : Nat) (hd : ((l.foldl Jobs.unmark j).act k).discord = true) :
    (j.act k).discord = true
      ∧ (k ∈ l → agrees ((l.foldl Jobs.unmark j).commanded k) ((l.foldl Jobs.unmark j).act k).reported = false)
      ∧ (l.foldl Jobs.unmark j).commanded k = j.commanded k
      ∧ ((l.foldl Jobs.unmark j).act k).reported = (j.act k).reported := by
  induction l generalizing j with
  | nil => exact ⟨hd, fun h => (List.not_mem_nil h).elim, rfl, rfl⟩
  | cons i l ih =>
    rw [List.foldl_cons] at hd ⊢
    obtain ⟨hm, hl, hc, hr⟩ := ih (j.unmark i) hd
    refine ⟨Jobs.discord_of_unmark hm, fun hk => ?_, hc.trans (j.unmark_commanded i k), hr.trans (j.unmark_reported i k)⟩
    rcases List.mem_cons.mp hk with rfl | hk
    · rw [hc, hr, Jobs.unmark_commanded, Jobs.unmark_reported]
      exact Jobs.disagrees_of_unmark hm
    · exact hl hk

theorem Jobs.clear_active (e : Env) {k : CondKind} (hk : k ≠ .overflowTrip) (j : Jobs) :
    (j.clear e k).active k = false := Tele.clear_active hk _

/-- R77: the discord test leaves a mark only where the states disagree, and ACTUATOR_DISCORD only with a mark. -/
theorem Jobs.discordTest_settles (e : Env) (j : Jobs) : (j.discordTest e).DiscordSettled e := by
  rw [Jobs.discordTest_eq]
  generalize hk : (List.range Config.actuatorCount).foldl Jobs.unmark j = k
  have marks : ∀ i < Config.actuatorCount, (k.act i).discord = true →
      agrees (k.commanded i) (k.act i).reported = false := fun i hi hm =>
    hk ▸ (Jobs.foldl_unmark _ j i (hk ▸ hm)).2.1 (List.mem_range.mpr hi)
  split
  · next hany =>
    obtain ⟨i, hi, hu⟩ := List.any_eq_true.mp hany
    rw [Bool.and_eq_true] at hu
    exact ⟨marks, .inl ⟨i, List.mem_range.mp hi, hu⟩⟩
  · exact ⟨marks, .inr (k.clear_active e (by decide))⟩

theorem Jobs.followIncumbent_frame (e : Env) (n : Nat) (j : Jobs) :
    (j.followIncumbent e n).queue = j.queue ∧ (j.followIncumbent e n).acts = j.acts
      ∧ (j.followIncumbent e n).tele = j.tele := by
  unfold Jobs.followIncumbent
  dsimp only
  split <;> split <;> exact ⟨rfl, rfl, rfl⟩

theorem flagsFollow_frame (e : Env) (j0 j : Jobs) :
    (flagsFollow e j0 j).queue = j.queue ∧ (flagsFollow e j0 j).acts = j.acts ∧ (flagsFollow e j0 j).tele = j.tele := by
  unfold flagsFollow
  split
  · obtain ⟨hq, ha, ht⟩ := j.followIncumbent_frame e 1
    obtain ⟨hq', ha', ht'⟩ := (j.followIncumbent e 1).followIncumbent_frame e 2
    exact ⟨hq'.trans hq, ha'.trans ha, ht'.trans ht⟩
  · exact ⟨rfl, rfl, rfl⟩

/-- What a change hands on leaves the discord marks settled. -/
theorem observe_discordSettled (e0 : Env) (j0 : Jobs) (e : Env) (j : Jobs) :
    (observe e0 j0 e j).DiscordSettled e := by
  have hd := j.discordTest_settles e
  have hfig : ∀ k : Jobs, k.DiscordSettled e →
      (k.tele' (fun v t => t.figuresChanged v (figures e0 j0)) e).DiscordSettled e := fun k hk =>
    hk.congr rfl rfl (congrArg Prod.fst ((Tele.same_figuresChanged _ _ _).flags .actuatorDiscord))
  unfold observe
  dsimp only
  refine hfig _ ?_
  split
  · exact hd
  · obtain ⟨hq, ha, ht⟩ := flagsFollow_frame e j0 (j.discordTest e)
    exact hd.congr hq ha (congrArg (fun t => (Tele.cond t .actuatorDiscord).active) ht)

/-- No pump start is barred, and the discord marks are as R77 leaves them. -/
def Jobs.Unbarred (e : Env) (j : Jobs) : Prop := j.fill.startBar = [] ∧ j.DiscordSettled e

theorem Jobs.unbar_unbarred {e : Env} {j : Jobs} (h : j.DiscordSettled e) : j.unbar.Unbarred e :=
  ⟨rfl, h.congr rfl rfl rfl⟩

theorem Jobs.drain_unbarred {e : Env} (n : Nat) {j : Jobs} (h : j.DiscordSettled e) :
    (Jobs.drain e n j).Unbarred e := by
  induction n generalizing j with
  | zero => exact Jobs.unbar_unbarred h
  | succ n ih =>
    unfold Jobs.drain
    split
    · exact Jobs.unbar_unbarred h
    · exact ih (observe_discordSettled ..)

theorem Jobs.settle_unbarred {e : Env} {j : Jobs} (h : j.DiscordSettled e) : (j.settle e).Unbarred e :=
  Jobs.drain_unbarred _ h

/-- A settling that takes a telling settles the discord marks, however they stood. -/
theorem Jobs.settle_unbarred_of_work {e : Env} {j : Jobs} (h : j.work ≠ []) : (j.settle e).Unbarred e := by
  show (Jobs.drain e (4095 + 1) j).Unbarred e
  unfold Jobs.drain
  split
  · next hw => exact absurd hw h
  · exact Jobs.drain_unbarred _ (observe_discordSettled ..)

end Sys2Proof.Machine
end

section
/-!
PROOFS. What the blocks' own part of each command keeps: the bounds of the In-Flight Table (R72), and that the settings store
holds no settings but those in force, stored or being stored (R177).
-/

namespace Sys2Proof.Machine

/-! ## The relation -/

/-- The settings stand in the stored image, or a store in flight copies them. -/
def Jobs.Holds (j : Jobs) (x : Settings) : Prop := x ∈ j.store.image ∨ x ∈ j.store.storing

/-- A change that keeps the bounds of the In-Flight Table, and puts into the settings store the live settings at most. -/
structure Jobs.Kept (live : Settings) (j j' : Jobs) : Prop where
  flight : FlightBounded j.flight → FlightBounded j'.flight
  stored : ∀ x, j'.Holds x → x = live ∨ j.Holds x

variable {live : Settings} {e : Env} {j0 j j' : Jobs}

theorem Jobs.Kept.refl (live : Settings) (j : Jobs) : Jobs.Kept live j j := ⟨id, fun _ => .inr⟩

theorem Jobs.Kept.trans (h : Jobs.Kept live j0 j) (h' : Jobs.Kept live j j') : Jobs.Kept live j0 j' :=
  ⟨h'.flight ∘ h.flight, fun x hx => (h'.stored x hx).elim .inl (h.stored x)⟩

/-- A change of neither table. -/
theorem Jobs.Kept.same (h : Jobs.Kept live j0 j) (hf : j'.flight = j.flight := by rfl)
    (hs : j'.store = j.store := by rfl) : Jobs.Kept live j0 j' :=
  h.trans ⟨hf ▸ id, fun x hx => .inr (by unfold Jobs.Holds at hx ⊢; exact hs ▸ hx)⟩

theorem Jobs.Kept.hull (h : Jobs.Kept live j0 j) (hh : j'.hull = j.hull) : Jobs.Kept live j0 j' := by
  have hf : j'.flight = j.flight := congrArg Hull.flight hh
  have hi : j'.store.image = j.store.image := congrArg Hull.image hh
  have hs : j'.store.storing = j.store.storing := congrArg Hull.storing hh
  exact h.trans ⟨hf ▸ id, fun x hx => .inr (by unfold Jobs.Holds at hx ⊢; exact hs ▸ hi ▸ hx)⟩

theorem Jobs.Kept.moves (h : Jobs.Kept live j0 j) (hm : Jobs.Moves false e j j') : Jobs.Kept live j0 j' :=
  h.hull hm.hull_eq

/-- A fold of changes. -/
theorem Jobs.Kept.foldl {β : Type} (f : Jobs → β → Jobs) (l : List β)
    (hf : ∀ {j : Jobs} (b : β), Jobs.Kept live j0 j → Jobs.Kept live j0 (f j b)) (h : Jobs.Kept live j0 j) :
    Jobs.Kept live j0 (l.foldl f j) := by
  induction l generalizing j with
  | nil => exact h
  | cons b l ih => exact ih (hf b h)

/-! ## The In-Flight Table (R72) -/

/-- Entries that leave keep the bounds. -/
theorem FlightBounded.sublist {f g : List Flight} (h : (g.map (·.idx)).Sublist (f.map (·.idx))) (hf : FlightBounded f) :
    FlightBounded g :=
  ⟨by simpa using h.length_le.trans (by simpa using hf.1), hf.2.sublist h⟩

theorem Jobs.Kept.flightFilter (p : Flight → Bool) (h : Jobs.Kept live j0 j) :
    Jobs.Kept live j0 { j with flight := j.flight.filter p } :=
  h.trans ⟨.sublist (List.filter_sublist.map _), fun _ => .inr⟩

theorem Jobs.Kept.flightMap (f : Flight → Flight) (hf : ∀ x, (f x).idx = x.idx) (h : Jobs.Kept live j0 j) :
    Jobs.Kept live j0 { j with flight := j.flight.map f } := by
  refine h.trans ⟨.sublist ?_, fun _ => .inr⟩
  rw [List.map_map]
  exact (List.map_congr_left fun x _ => hf x).symm ▸ List.Sublist.refl _

/-- R71: a ready command finds room in the In-Flight Table, and its actuator not there. -/
theorem Jobs.ready_bounds {i : Nat} {a : Action} {o : Origin} (h : j.ready = some (i, a, o)) :
    j.flight.length < Config.flightMax ∧ j.inFlight i = false := by
  unfold Jobs.ready at h
  split at h
  · cases h
  · next hl =>
    obtain ⟨x, -, hx⟩ := List.exists_of_findSome?_eq_some h
    refine ⟨Nat.lt_of_not_le hl, ?_⟩
    split at hx
    · split at hx
      · cases hx
      · next hn => cases hx; exact Bool.eq_false_of_not_eq_true hn
    · cases hx

/-- R72: an issue adds one entry, for an actuator that has none. -/
theorem Jobs.kept_issue {i : Nat} {a : Action} {o : Origin} (h : j.ready = some (i, a, o)) :
    Jobs.Kept live j (j.issue e i a o) := by
  obtain ⟨hroom, hnone⟩ := Jobs.ready_bounds h
  have hadd : FlightBounded j.flight →
      FlightBounded (j.flight ++ [Flight.mk i a o false (e.now + e.set.general.ackTimeout)]) := by
    rintro ⟨-, hn⟩
    refine ⟨by simpa using hroom, ?_⟩
    rw [List.map_append, List.nodup_append]
    refine ⟨hn, List.nodup_singleton _, fun x hx y hy => ?_⟩
    obtain ⟨f, hf, rfl⟩ := List.mem_map.mp hx
    rw [List.mem_singleton.mp hy]
    intro hi
    have := List.any_eq_false.mp hnone f hf
    simp [hi] at this
  have hk : Jobs.Kept live j { j with
      queue := j.queue.erase (.cmd i a o)
      flight := j.flight ++ [Flight.mk i a o false (e.now + e.set.general.ackTimeout)] } := ⟨hadd, fun _ => .inr⟩
  unfold Jobs.issue
  exact (hk.same (j' := Jobs.count _ (Jobs.updateAct ..))).moves Jobs.Moves.refl.itemsLeft

/-! ## Reported states and timeouts (spec/04) -/

theorem Jobs.Kept.keep (k : CondKind) (b : Bool) (h : Jobs.Kept live j0 j) : Jobs.Kept live j0 (j.keep e k b) := by
  unfold Jobs.keep
  split <;> exact h.same

theorem Jobs.Kept.tellOrigin (o : Origin) (i : Nat) (a : Action) (r : CmdResult) (h : Jobs.Kept live j0 j) :
    Jobs.Kept live j0 (j.tellOrigin e o i a r) := h.moves (Jobs.Moves.refl.tellOrigin ..)

theorem Jobs.Kept.endFlight (f : Flight) (r : CmdResult) (h : Jobs.Kept live j0 j) :
    Jobs.Kept live j0 (j.endFlight e f r) :=
  ((h.flightFilter _).moves Jobs.Moves.refl.fenceTest).tellOrigin ..

theorem Jobs.Kept.lostTest (h : Jobs.Kept live j0 j) : Jobs.Kept live j0 (j.lostTest e) := by
  unfold Jobs.lostTest
  split
  · exact h
  · exact h.same

theorem Jobs.Kept.setReported (i : Nat) (c : StateCode) (d : Nat) (u : Option Nat) (h : Jobs.Kept live j0 j) :
    Jobs.Kept live j0 (j.setReported e i c d u) := by
  unfold Jobs.setReported
  dsimp only
  split
  · exact (h.same (j' := Jobs.updateAct ..)).lostTest
  · exact h.same

theorem Jobs.Kept.unjam (i : Nat) (h : Jobs.Kept live j0 j) : Jobs.Kept live j0 (j.unjam i) := by
  unfold Jobs.unjam
  split
  · exact h.same
  · exact h

theorem Jobs.Kept.setFault (i : Nat) (f : ActFault) (h : Jobs.Kept live j0 j) : Jobs.Kept live j0 (j.setFault i f) := h.same

theorem Jobs.Kept.tellDiscord (i : Nat) (h : Jobs.Kept live j0 j) : Jobs.Kept live j0 (j.tellDiscord e i) := by
  unfold Jobs.tellDiscord
  split <;> exact h.same

theorem Jobs.Kept.statusReport (i : Nat) (c : StateCode) (d : Nat) (u : Option Nat) (h : Jobs.Kept live j0 j) :
    Jobs.Kept live j0 (j.statusReport e i c d u) := by
  unfold Jobs.statusReport
  dsimp only
  split
  · exact h.setReported ..
  · exact ((h.setReported i c d u).same (j' := Jobs.raise _ _ (Jobs.updateAct ..))).tellDiscord i

theorem Jobs.Kept.answered (f : Flight) (c : StateCode) (d : Nat) (h : Jobs.Kept live j0 j) :
    Jobs.Kept live j0 (j.answered e f c d) := by
  unfold Jobs.answered
  split
  · exact h.endFlight ..
  · exact h.endFlight ..
  · exact h.endFlight ..
  · split
    · exact (h.unjam _).endFlight ..
    · split
      · exact h.flightMap _ fun x => by split <;> rfl
      · split
        · exact (h.setFault ..).endFlight ..
        · exact h.endFlight ..

theorem Jobs.Kept.ackItem (i : Nat) (s : Slot) (h : Jobs.Kept live j0 j) : Jobs.Kept live j0 (j.ackItem e i s) := by
  unfold Jobs.ackItem
  split
  · exact h
  · split
    · split
      · exact (h.setReported ..).answered ..
      · exact h.statusReport ..
    · exact h.statusReport ..

theorem Jobs.Kept.positionStatus (f : Flight) (b : Bool) (c : StateCode) (h : Jobs.Kept live j0 j) :
    Jobs.Kept live j0 (j.positionStatus e f b c) := by
  unfold Jobs.positionStatus
  split
  · exact (h.unjam _).endFlight ..
  · split
    · exact (h.setFault ..).endFlight ..
    · exact h

theorem Jobs.Kept.statusItem (i : Nat) (s : Slot) (h : Jobs.Kept live j0 j) : Jobs.Kept live j0 (j.statusItem e i s) := by
  unfold Jobs.statusItem
  split
  · exact h
  · next code _ =>
    dsimp only
    generalize hu : (if (e.set.act i).kind == .heater then some s.field3 else none) = units
    have hk : Jobs.Kept live j0 (match j.flightOf i with
        | some f =>
            match f.action with
            | .position opened => (j.setReported e i code s.field2 units).positionStatus e f opened code
            | _ => j.statusReport e i code s.field2 units
        | none => j.statusReport e i code s.field2 units) := by
      split
      · split
        · exact (h.setReported ..).positionStatus ..
        · exact h.statusReport ..
      · exact h.statusReport ..
    split
    · exact hk.same
    · exact hk

theorem Jobs.Kept.ackTimeout (i : Nat) (h : Jobs.Kept live j0 j) : Jobs.Kept live j0 (j.ackTimeout e i) := by
  unfold Jobs.ackTimeout
  split
  · exact h
  · split
    · exact h
    · exact (h.same (j' := Jobs.raise _ _ (Jobs.updateAct _ _ (Jobs.count ..)))).endFlight ..

theorem Jobs.Kept.travelTimeout (i : Nat) (h : Jobs.Kept live j0 j) : Jobs.Kept live j0 (j.travelTimeout e i) := by
  unfold Jobs.travelTimeout
  split
  · exact h
  · split
    · exact (h.same (j' := Jobs.updateAct ..)).endFlight ..
    · exact h

theorem Jobs.Kept.restExpiry (i : Nat) (h : Jobs.Kept live j0 j) : Jobs.Kept live j0 (j.restExpiry i) := by
  unfold Jobs.restExpiry
  split
  · exact h.same
  · exact h

theorem Jobs.Kept.runSecond (h : Jobs.Kept live j0 j) : Jobs.Kept live j0 (j.runSecond e) :=
  Jobs.Kept.foldl _ _ (fun i hi => by split; exacts [hi.same, hi]) h

/-! ## The operator path (R78) -/

theorem Jobs.Kept.startHold (i : Nat) (h : Jobs.Kept live j0 j) : Jobs.Kept live j0 (j.startHold e i) :=
  (h.same (j' := Jobs.updateAct ..)).moves (Jobs.Moves.refl.tellHold ..)

theorem Jobs.Kept.operatorQueue (i : Nat) (x : OperatorItem) (h : Jobs.Kept live j0 j) :
    Jobs.Kept live j0 (j.operatorQueue e i x) := by
  have hq := h.moves (Jobs.Moves.refl.enqueue (e := e) .operator i x.action)
  unfold Jobs.operatorQueue
  split
  · next hp =>
    rw [hp] at hq
    split
    · exact hq
    · exact hq.startHold i
  · next hp =>
    rw [hp] at hq
    dsimp only
    split
    · exact hq.moves ((Jobs.Moves.refl.refuseFull ..).withdrawOperator i)
    · exact hq.moves (Jobs.Moves.refl.refuseFull ..)

theorem Jobs.Kept.postOperator (n : Nat) (h : Jobs.Kept live j0 j) : Jobs.Kept live j0 (j.postOperator e n) := by
  unfold Jobs.postOperator
  dsimp only
  split
  · exact h.same
  · exact (h.same (j' := Jobs.updateClaim ..)).moves Jobs.Moves.refl.pass

theorem Jobs.Kept.operatorStart (i : Nat) (x : OperatorItem) (h : Jobs.Kept live j0 j) :
    Jobs.Kept live j0 (j.operatorStart e i x) := by
  unfold Jobs.operatorStart
  split
  · exact h.moves (Jobs.Moves.refl.refuse ..)
  · dsimp only
    split
    · exact (h.postOperator _).moves ((Jobs.Moves.refl.refuse ..).withdrawOperator i)
    · exact (h.postOperator _).operatorQueue ..

theorem Jobs.Kept.operatorItem (i : Nat) (x : OperatorItem) (h : Jobs.Kept live j0 j) :
    Jobs.Kept live j0 (j.operatorItem e i x) := by
  unfold Jobs.operatorItem
  split
  · exact h.moves (Jobs.Moves.refl.endHold ..)
  · split
    · exact h.moves (Jobs.Moves.refl.refuse ..)
    · split
      · exact h.operatorStart ..
      · exact h.operatorQueue ..

theorem Jobs.Kept.operatorFence (h : Jobs.Kept live j0 j) : Jobs.Kept live j0 (j.operatorFence e) := by
  have hq := h.moves (Jobs.Moves.refl.join (e := e) (.fence false))
  unfold Jobs.operatorFence
  split
  · next hp => rw [hp] at hq; exact hq.moves Jobs.Moves.refl.fenceTest
  · next hp => rw [hp] at hq; exact hq.same

/-! ## Time, heads and runs -/

theorem Jobs.Kept.tariffChange (a c : Env) (h : Jobs.Kept live j0 j) : Jobs.Kept live j0 (j.tariffChange a c) := by
  unfold Jobs.tariffChange
  split
  · exact h
  · exact h.same

theorem Jobs.Kept.countJump (c : Clock) (t : TimeOfWeek) (h : Jobs.Kept live j0 j) : Jobs.Kept live j0 (j.countJump c t) := by
  unfold Jobs.countJump
  split
  · exact h.same
  · exact h

theorem Jobs.Kept.leftStale (was : HeadState) (h : Jobs.Kept live j0 j) : Jobs.Kept live j0 (j.leftStale e was) := by
  unfold Jobs.leftStale
  split
  · exact h.keep ..
  · exact h

theorem Jobs.Kept.faultPump (n : Nat) (f : ActFault) (h : Jobs.Kept live j0 j) : Jobs.Kept live j0 (j.faultPump e n f) := by
  unfold Jobs.faultPump
  split
  · exact h.moves (Jobs.Moves.refl.endRun _)
  · exact (h.setFault ..).moves ((Jobs.Moves.refl.raise _ rfl).endRun _)

theorem Jobs.Kept.proveExpiry (n : Nat) (h : Jobs.Kept live j0 j) : Jobs.Kept live j0 (j.proveExpiry e n) := by
  have hu : Jobs.Kept live j0 (j.updateRun n fun r => { r with prove := none }) := h.moves (e := e) (Jobs.Moves.refl.updateRun ..)
  unfold Jobs.proveExpiry
  dsimp only
  split
  · exact h
  · split
    · split
      · exact (hu.faultPump ..).moves (Jobs.Moves.refl.fillEvaluate _)
      · exact hu.moves (e := e) (Jobs.Moves.refl.updateRun ..)
    · exact hu

theorem Jobs.Kept.dryExpiry (n : Nat) (h : Jobs.Kept live j0 j) : Jobs.Kept live j0 (j.dryExpiry e n) := by
  have hu : Jobs.Kept live j0 (j.updateRun n fun r => { r with dry := none }) := h.moves (e := e) (Jobs.Moves.refl.updateRun ..)
  unfold Jobs.dryExpiry
  split
  · exact h
  · exact (hu.faultPump ..).moves (Jobs.Moves.refl.fillEvaluate _)

theorem Jobs.Kept.blindStartExpiry (h : Jobs.Kept live j0 j) : Jobs.Kept live j0 (j.blindStartExpiry e) := by
  unfold Jobs.blindStartExpiry
  split
  · exact h
  · exact (h.same (j' := Jobs.guarding ..)).moves (Jobs.Moves.refl.guardEvaluate _)

theorem Jobs.Kept.failHeater (z : Nat) (h : Jobs.Kept live j0 j) : Jobs.Kept live j0 (j.failHeater e z) := by
  unfold Jobs.failHeater
  dsimp only
  split
  · exact h.moves (((Jobs.Moves.refl.updateZone ..).raise _ rfl).zoneEvaluate z)
  · exact (h.setFault ..).moves (((Jobs.Moves.refl.updateZone ..).raise _ rfl).zoneEvaluate z)

theorem Jobs.Kept.heaterProveExpiry (z : Nat) (h : Jobs.Kept live j0 j) :
    Jobs.Kept live j0 (j.heaterProveExpiry e z) := by
  unfold Jobs.heaterProveExpiry
  split
  · exact h.failHeater z
  · exact h

theorem Jobs.Kept.splitExpiry (h : Jobs.Kept live j0 j) : Jobs.Kept live j0 (j.splitExpiry e) := by
  unfold Jobs.splitExpiry
  split
  · exact h.same
  · exact h

/-! ## Changes that move the time or a head -/

/-- A change of the blocks' part that leaves the settings in force and keeps the rest. -/
structure Part.Kept (live : Settings) (p q : Part) : Prop where
  set : q.1.set = p.1.set
  jobs : Jobs.Kept live p.2 q.2

theorem Part.Kept.refl (live : Settings) (p : Part) : Part.Kept live p p := ⟨rfl, .refl ..⟩

@[simp] theorem Env.updateHead_set (a : Nat) (f : HeadRuntime → HeadRuntime) (e : Env) :
    (e.updateHead a f).set = e.set := by unfold Env.updateHead; split <;> rfl

theorem Part.kept_heard (bs : List Byte) (p : Part) : Part.Kept live p (heard bs p) := by
  unfold heard
  dsimp only
  split
  · refine ⟨Env.updateHead_set .., ?_⟩
    dsimp only
    split
    · exact (Jobs.Kept.refl ..).leftStale _
    · exact .refl ..
  · exact .refl ..

theorem Part.kept_takeValue (a : Nat) (v : Int) (c : Bool) (p : Part) : Part.Kept live p (takeValue a v c p) := by
  refine ⟨Env.updateHead_set .., ?_⟩
  unfold takeValue
  dsimp only
  split
  · exact ((Jobs.Kept.refl ..).leftStale _).same
  · exact (Jobs.Kept.refl ..).leftStale _

theorem Part.kept_takeFault (a c : Nat) (p : Part) : Part.Kept live p (takeFault a c p) :=
  ⟨Env.updateHead_set .., ((Jobs.Kept.refl ..).leftStale _).same⟩

theorem Part.kept_takeItem (a : Nat) (x : SampleItem) (p : Part) : Part.Kept live p (takeItem a x p) := by
  unfold takeItem
  split
  · exact .refl ..
  · exact Part.kept_takeValue ..
  · exact Part.kept_takeFault ..

theorem Part.kept_staleExpiry (a : Nat) (p : Part) : Part.Kept live p (staleExpiry a p) := by
  unfold staleExpiry
  split
  · refine ⟨Env.updateHead_set .., ?_⟩
    dsimp only
    split
    · exact (Jobs.Kept.refl ..).same
    · exact ((Jobs.Kept.refl ..).same (j' := Jobs.unusable ..)).keep ..
  · exact .refl ..

theorem Part.kept_tick (p : Part) : Part.Kept live p (tick p) := by
  have hr : Jobs.Kept live p.2 (p.2.runSecond
      { p.1 with now := p.1.now + 1, clock := { p.1.clock with tow := p.1.clock.tow.next.1 } }) :=
    (Jobs.Kept.refl ..).runSecond
  unfold tick
  dsimp only
  split
  · exact ⟨rfl, (hr.tariffChange ..).same⟩
  · exact ⟨rfl, hr⟩

theorem Part.kept_minuteTick (p : Part) : Part.Kept live p (minuteTick p) := by
  unfold minuteTick
  split
  · exact Part.kept_tick p
  · exact .refl ..

theorem Part.kept_clockStaleExpiry (p : Part) : Part.Kept live p (clockStaleExpiry p) := by
  unfold clockStaleExpiry
  split
  · exact ⟨rfl, ((Jobs.Kept.refl live p.2).same (j' := Jobs.raise ..)).tariffChange ..⟩
  · exact .refl ..

/-! ## What the owners of a table do at a write (R176) -/

theorem Jobs.Kept.leaveHeaters (before : Settings) (h : Jobs.Kept live j0 j) :
    Jobs.Kept live j0 (j.leaveHeaters e before) := by
  refine Jobs.Kept.foldl _ _ (fun {k} z hk => ?_) h
  unfold Jobs.leaveHeater
  split
  · exact hk
  · split
    · exact hk
    · dsimp only
      split
      · exact (hk.same (j' := Jobs.updateZone ..)).moves (Jobs.Moves.refl.request ..)
      · exact hk.same

theorem Jobs.Kept.zonesWritten (before : Settings) (h : Jobs.Kept live j0 j) :
    Jobs.Kept live j0 (j.zonesWritten e before) := (h.leaveHeaters before).same

theorem Part.kept_disableHead (a : Nat) (s : HeadSettings) (p : Part) : Part.Kept live p (disableHead a s p) :=
  ⟨Env.updateHead_set .., ((Jobs.Kept.refl live p.2).same (j' := Jobs.headReset ..)).keep ..⟩

theorem Part.kept_enableHead (a : Nat) (s : HeadSettings) (p : Part) : Part.Kept live p (enableHead a s p) :=
  ⟨Env.updateHead_set .., (Jobs.Kept.refl live p.2).same⟩

theorem Part.Kept.trans {p q r : Part} (h : Part.Kept live p q) (h' : Part.Kept live q r) : Part.Kept live p r :=
  ⟨h'.set.trans h.set, h.jobs.trans h'.jobs⟩

theorem Part.kept_headWritten (a : Nat) (old : HeadSettings) (p : Part) : Part.Kept live p (headWritten a old p) := by
  unfold headWritten
  dsimp only
  split
  · exact .refl ..
  · exact Part.kept_enableHead ..
  · exact Part.kept_disableHead ..
  · split
    · exact (Part.kept_disableHead ..).trans (Part.kept_enableHead ..)
    · split
      · exact ⟨rfl, (Jobs.Kept.refl live p.2).same⟩
      · exact .refl ..

theorem Part.kept_tellHeads (before : Settings) (a : Nat) (p : Part) : Part.Kept live p (tellHeads before a p) := by
  have hw := Part.kept_headWritten (live := live) a (before.head a) p
  refine ⟨hw.set, Jobs.Kept.zonesWritten _ ?_⟩
  split
  · exact (hw.jobs.moves Jobs.Moves.refl.incumbents).same
  · exact hw.jobs

theorem Jobs.Kept.cancelUnsent (i : Nat) (h : Jobs.Kept live j0 j) : Jobs.Kept live j0 (j.cancelUnsent e i) := by
  have hq : Jobs.Kept live j0 { j with queue := j.queue.filter (fun x => !x.isFor i) } := h.same
  refine Jobs.Kept.foldl _ _ (fun x hx => ?_) hq
  cases x with
  | cmd k a o => exact hx.moves (Jobs.Moves.refl.cancel ..)
  | fence g => exact hx

theorem Jobs.Kept.abandon (i : Nat) (h : Jobs.Kept live j0 j) : Jobs.Kept live j0 (j.abandon i) :=
  (h.flightFilter fun f => f.idx != i).same

theorem Jobs.Kept.entryChanged (before : Settings) (i : Nat) (h : Jobs.Kept live j0 j) :
    Jobs.Kept live j0 (j.entryChanged e before i) := by
  have hr : Jobs.Kept live j0 ((((j.cancelUnsent e i).abandon i).itemsLeft e).updateAct i
      (fun a => if (e.set.act i).inUse ∧ (before.act i).kind = (e.set.act i).kind then a.restart else .powerOn)) :=
    (((h.cancelUnsent i).abandon i).moves Jobs.Moves.refl.itemsLeft).same
  have claim : ∀ {k : Jobs}, Jobs.Kept live j0 k → Jobs.Kept live j0 (match before.pumpNumber i with
      | none => k
      | some n => if (k.claim (n - 1)).operator then
          (k.updateClaim (n - 1) (fun c => { c with operator := false })).startPass else k) := by
    intro k hk
    split
    · exact hk
    · split
      · exact hk.same
      · exact hk
  have zone : ∀ (lost : Bool) {k : Jobs}, Jobs.Kept live j0 k →
      Jobs.Kept live j0 (match (before.heaterZone i).or (e.set.heaterZone i) with
        | none => k
        | some z => k.updateZone z (Zone.entryMoved lost)) := by
    intro lost k hk
    split
    · exact hk
    · exact hk.same
  have hz := zone (j.frostUnsent i) (claim hr)
  unfold Jobs.entryChanged
  dsimp only
  split
  · exact Jobs.Kept.moves hz (Jobs.Moves.refl.request ..)
  · exact hz

theorem Jobs.Kept.actuatorWritten (before : Settings) (i : Nat) (h : Jobs.Kept live j0 j) :
    Jobs.Kept live j0 (j.actuatorWritten e before i) := by
  have hk : ∀ {k}, Jobs.Kept live j0 k → Jobs.Kept live j0 ((((k.lostTest e).incumbents e).tell
      (actuatorTold before e.set i)).zonesWritten e before) := fun hk =>
    ((hk.lostTest.moves Jobs.Moves.refl.incumbents).same).zonesWritten before
  unfold Jobs.actuatorWritten
  dsimp only
  split
  · exact hk (h.entryChanged ..)
  · exact hk h

theorem Jobs.Kept.clearSuspect (a : Nat) (h : Jobs.Kept live j0 j) : Jobs.Kept live j0 (j.clearSuspect a) := by
  unfold Jobs.clearSuspect
  split
  · exact h.same
  · exact h

theorem Jobs.Kept.guardWritten (before : Settings) (h : Jobs.Kept live j0 j) :
    Jobs.Kept live j0 (j.guardWritten e before) := by
  have hc : ∀ (k : HeadKind) (was now : Option Nat) {i : Jobs}, Jobs.Kept live j0 i →
      Jobs.Kept live j0 (match e.set.knownKind k with
        | none => i
        | some a => if was.isSome && was != now then i.clearSuspect a else i) := by
    intro k was now i hi
    split
    · exact hi
    · split
      · exact hi.clearSuspect _
      · exact hi
  have h2 := hc .gaugeRanging before.guard.housingB e.set.guard.housingB
    (hc .gaugePressure before.guard.housingA e.set.guard.housingA h)
  unfold Jobs.guardWritten
  dsimp only
  split
  · exact h2.same
  · exact h2.same

theorem Jobs.Kept.zoneWritten (before : Settings) (i : Nat) (h : Jobs.Kept live j0 j) :
    Jobs.Kept live j0 (j.zoneWritten e before i) := by
  unfold Jobs.zoneWritten
  split
  · exact h.same
  · dsimp only
    split
    · exact (h.leaveHeaters before).same
    · exact ((h.same (j' := Jobs.updateZone ..)).leaveHeaters before).same

theorem Part.kept_tariffWritten (p : Part) : Part.Kept live p (tariffWritten p) :=
  ⟨rfl, (Jobs.Kept.refl live p.2).tariffChange ..⟩

/-- The owner of a table changes no settings. -/
theorem Part.kept_ownerTold (t : Table) (i g : Nat) (before : Settings) (p : Part) :
    Part.Kept live p (ownerTold t i g before p) := by
  have h0 := Jobs.Kept.refl live p.2
  unfold ownerTold
  dsimp only
  split
  · split
    · exact .refl ..
    · split <;> exact ⟨rfl, h0.same⟩
  · exact Part.kept_tellHeads ..
  · exact ⟨rfl, h0.actuatorWritten ..⟩
  · exact Part.kept_tariffWritten p
  · split
    · exact .refl ..
    · exact ⟨rfl, h0.same⟩
  · exact ⟨rfl, h0.guardWritten _⟩
  · exact ⟨rfl, h0.zoneWritten ..⟩
  · exact ⟨rfl, (Part.kept_tariffWritten p).jobs.same⟩
  · exact ⟨rfl, h0.same⟩
  · exact ⟨rfl, h0.same⟩

/-! ## Requests and the settings store (spec/11) -/

theorem Jobs.Kept.clearFault (i : Nat) (h : Jobs.Kept live j0 j) : Jobs.Kept live j0 (j.clearFault e i) := by
  unfold Jobs.clearFault
  split
  · exact h
  · dsimp only
    split
    · exact h.same
    · exact h.same
    · exact h.same
    · split <;> exact h.same

theorem Jobs.Kept.releaseTrip (h : Jobs.Kept live j0 j) : Jobs.Kept live j0 (j.releaseTrip e).1 := by
  unfold Jobs.releaseTrip
  split
  · exact h
  · split
    · exact (((h.same (j' := Jobs.guarding ..)).hull (Jobs.hull_askWord _)).moves
        ((((Jobs.Moves.refl.clear _ rfl).clear _ rfl).clear _ rfl).guardGroup _)).same
    · exact h

/-- R177: a store that draws its settings from those in force, those stored and those being stored. -/
def Store.Draws (live : Settings) (s s' : Store) : Prop :=
  ∀ x, x ∈ s'.image ∨ x ∈ s'.storing → x = live ∨ x ∈ s.image ∨ x ∈ s.storing

theorem Jobs.Kept.ofDraws (f : Store → Store) (hf : Store.Draws live j.store (f j.store)) (h : Jobs.Kept live j0 j) :
    Jobs.Kept live j0 (j.stored f) := h.trans ⟨id, hf⟩

theorem Store.draws_begin (live : Settings) (s : Store) : Store.Draws live s (s.begin live) := fun _ hx =>
  hx.elim (fun h => .inr (.inl h)) (fun h => .inl (Option.some.inj h).symm)

theorem Store.draws_beginNext (live : Settings) (latch : Bool) (s : Store) : Store.Draws live s (s.beginNext live latch) := by
  unfold Store.beginNext
  split
  · exact fun _ => .inr
  · split
    · exact fun _ => .inr
    · split
      · exact s.draws_begin live
      · exact fun _ => .inr

theorem Store.draws_wordWritten (live : Settings) (latch : Bool) (s : Store) :
    Store.Draws live s (s.wordWritten live latch) := by
  unfold Store.wordWritten
  split
  · exact fun _ => .inr
  · exact Store.draws_beginNext live latch _

/-- R177: a store that ends leaves the settings that it was storing. -/
theorem Store.draws_completed (live : Settings) (latch : Bool) (s : Store) : Store.Draws live s (s.completed latch) := by
  unfold Store.completed
  split
  · exact fun _ => .inr
  · next image hs =>
    intro x hx
    have himage : image ∈ s.storing := hs
    rcases Store.draws_beginNext image latch _ x hx with rfl | h | h
    · exact .inr (.inr himage)
    · exact .inr (.inr (Option.some.inj h ▸ himage))
    · cases h

theorem Jobs.Kept.takeStore (r : Request) (h : Jobs.Kept live j0 j) : Jobs.Kept live j0 (j.takeStore live r) := by
  refine h.ofDraws _ ?_
  dsimp only
  split
  · exact fun _ => .inr
  · exact Store.draws_begin live _

/-! ## Resets (R178, R179) -/

/-- What follows a reset writes no settings and issues no command. -/
theorem Jobs.kept_resetTaken (e : Env) (j : Jobs) : Jobs.Kept live j (j.resetTaken e) := by
  have hq : Jobs.Kept live j (j.queryAll e) := (Jobs.Kept.refl ..).moves (Jobs.Moves.refl.request ..)
  have hf : Jobs.Kept live j (((j.queryAll e).tele' (fun v t => t.allDue v) e).firstEvaluations) :=
    hq.same (by simp only [Jobs.firstEvaluations, Jobs.tell_flight, Jobs.post_flight, Jobs.tele'_flight])
      (by simp only [Jobs.firstEvaluations, Jobs.tell_store, Jobs.post_store, Jobs.tele'_store])
  exact hf.moves (Jobs.moves_settle ..)

theorem Jobs.Kept.raiseWhen (k : CondKind) (b : Bool) (h : Jobs.Kept live j0 j) : Jobs.Kept live j0 (j.raiseWhen e k b) := by
  unfold Jobs.raiseWhen
  split
  · exact h.same
  · exact h

end Sys2Proof.Machine
end

section
/-!
PROOFS. What every command keeps: the bounds of the Loop interface and of the In-Flight Table, legal settings, and the state in
which a settling leaves the part. Each effect is taken apart once, in `State.Keeps`; the invariants are its fields.
-/

namespace Sys2Proof.Machine

/-! ## Settings that a write leaves (R7, R89, R103, R176) -/

theorem taken_eq_some {α : Type} {ok : Bool} {a b : α} (h : taken ok a = some b) : ok = true ∧ a = b := by
  unfold taken at h
  split at h
  · next hok => exact ⟨hok, Option.some.inj h⟩
  · cases h

/-- Legality reads the GENERAL and the GUARD settings alone. -/
theorem Settings.Legal.congr {s s' : Settings} (h : s.Legal) (hg : s'.general = s.general) (hu : s'.guard = s.guard) :
    s'.Legal := by
  unfold Settings.Legal
  rw [hg, hu]
  exact h

theorem within_iff {lo hi n : Nat} : within lo hi n = true ↔ lo ≤ n ∧ n ≤ hi := decide_eq_true_iff

/-- A GENERAL group is checked against the orderings that it enters. -/
theorem Settings.Legal.writeGeneral {s s' : Settings} {g : Nat} {d : List Byte} (h : s.Legal)
    (hw : writeGeneral s g d = some s') : s'.Legal := by
  obtain ⟨hown, hguard, hreserve⟩ := h
  unfold Sys2Proof.Machine.writeGeneral at hw
  dsimp only at hw
  split at hw <;> obtain ⟨hok, rfl⟩ := taken_eq_some hw <;>
    simp only [Bool.and_eq_true, Bool.or_eq_true, within_iff, beq_iff_eq] at hok
  · exact ⟨hok.1.1.1.1.1, hguard, hreserve⟩
  · exact ⟨hown, of_decide_eq_true hok.2, hreserve⟩
  · exact ⟨hown, hguard, hreserve⟩
  · exact ⟨hown, hguard, of_decide_eq_true hok.2⟩

/-- A GUARD group is checked for the guard ordering and the reserve. -/
theorem Settings.Legal.writeGuard {s s' : Settings} {g : Nat} {d : List Byte} (h : s.Legal)
    (hw : writeGuard s g d = some s') : s'.Legal := by
  obtain ⟨hown, hguard, hreserve⟩ := h
  unfold Sys2Proof.Machine.writeGuard at hw
  dsimp only at hw
  split at hw
  · obtain ⟨hok, rfl⟩ := taken_eq_some hw
    simp only [Bool.and_eq_true] at hok
    obtain ⟨⟨-, hord⟩, hres⟩ := hok
    exact ⟨hown, of_decide_eq_true hord, of_decide_eq_true hres⟩
  · split at hw
    · obtain ⟨-, rfl⟩ := taken_eq_some hw
      exact ⟨hown, hguard, hreserve⟩
    · cases hw

/-- The other tables leave the GENERAL and the GUARD settings as they are. -/
theorem writeTable_keeps {s s' : Settings} {t : Table} {i g : Nat} {d : List Byte} (hgen : t ≠ .general) (hgua : t ≠ .guard)
    (hw : writeTable s t i g d = some s') : s'.general = s.general ∧ s'.guard = s.guard := by
  have put : ∀ {ok : Bool} {new : Settings}, taken ok new = some s' → new.general = s.general → new.guard = s.guard →
      s'.general = s.general ∧ s'.guard = s.guard := by
    intro ok new h hg hu
    obtain ⟨-, rfl⟩ := taken_eq_some h
    exact ⟨hg, hu⟩
  unfold writeTable at hw
  cases t with
  | general => exact absurd rfl hgen
  | guard => exact absurd rfl hgua
  | heads =>
    dsimp only [writeHead] at hw
    split at hw
    · split at hw
      · exact put hw rfl rfl
      · cases hw
    · exact put hw rfl rfl
  | actuators =>
    dsimp only [writeActuator] at hw
    split at hw
    · exact put hw rfl rfl
    · cases hw
  | tariff =>
    dsimp only [writeTariff] at hw
    split at hw
    · split at hw
      · exact put hw rfl rfl
      · cases hw
    · exact put hw rfl rfl
  | strapping =>
    dsimp only [writeStrapping] at hw
    split at hw <;> exact put hw rfl rfl
  | zones =>
    dsimp only [writeShared, writeZone] at hw
    split at hw
    · split at hw
      · split at hw
        · exact put hw rfl rfl
        · cases hw
      · exact put hw rfl rfl
    · split at hw
      · split at hw
        · exact put hw rfl rfl
        · cases hw
      · exact put hw rfl rfl
      · exact put hw rfl rfl
  | allotment => exact put hw rfl rfl
  | policy =>
    dsimp only [writePolicy] at hw
    split at hw <;> exact put hw rfl rfl
  | conditions =>
    dsimp only [writeConditions] at hw
    split at hw
    · split at hw
      · exact put hw rfl rfl
      · cases hw
    · split at hw
      · exact put hw rfl rfl
      · cases hw

/-- R176: a write that is taken leaves legal settings. -/
theorem Settings.Legal.writeTable {s s' : Settings} {t : Table} {i g : Nat} {d : List Byte} (h : s.Legal)
    (hw : writeTable s t i g d = some s') : s'.Legal := by
  by_cases hgen : t = .general
  · subst hgen; exact h.writeGeneral hw
  · by_cases hgua : t = .guard
    · subst hgua; exact h.writeGuard hw
    · obtain ⟨hg, hu⟩ := writeTable_keeps hgen hgua hw
      exact h.congr hg hu

theorem Settings.Legal.factory : Settings.factory.Legal := by decide

/-! ## The forwarded queues (R8 to R10) -/

theorem dropSample_length {l r : List (List Byte)} (h : dropSample l = some r) : l.length = r.length + 1 := by
  induction l generalizing r with
  | nil => cases h
  | cons x l ih =>
    unfold dropSample at h
    split at h
    · cases h; rfl
    · obtain ⟨r', hr, rfl⟩ := Option.map_eq_some_iff.mp h
      simp [ih hr]

theorem Loop.Bounded.offerL {l : Loop} (bs : List Byte) (h : l.Bounded) : (l.offerL bs).1.Bounded := by
  obtain ⟨hc, hl, hf, hs, hb⟩ := h
  unfold Loop.offerL
  split
  · next hroom => exact ⟨hc, by simpa using hroom, hf, hs, hb⟩
  · split
    · split
      · next hd => exact ⟨hc, by simpa [← dropSample_length hd] using hl, hf, hs, hb⟩
      · exact ⟨hc, hl, hf, hs, hb⟩
    · exact ⟨hc, hl, hf, hs, hb⟩

theorem Loop.Bounded.offerF {l : Loop} (bs : List Byte) (h : l.Bounded) : (l.offerF bs).1.Bounded := by
  obtain ⟨hc, hl, hf, hs, hb⟩ := h
  unfold Loop.offerF
  split
  · next hroom => exact ⟨hc, hl, by simpa using hroom, hs, hb⟩
  · exact ⟨hc, hl, hf, hs, hb⟩

/-- R12: a CREDIT cell leaves at most 15 credits. -/
theorem creditAfter_le {c n : Nat} {x : Slot} (h : creditAfter c x = some n) : n ≤ Config.creditMax := by
  unfold creditAfter at h
  split at h
  · cases h
  · next hx =>
    split at h
    · cases h; exact Nat.min_le_left ..
    · split at h
      · cases h; exact Nat.le_of_not_lt fun hlt => hx (.inr hlt)
      · cases h

/-! ## What a command keeps -/

/-- What every command keeps of the whole part. -/
structure State.Keeps (s t : State) : Prop where
  loop : s.loop.Bounded → t.loop.Bounded
  flight : FlightBounded s.jobs.flight → FlightBounded t.jobs.flight
  legal : s.SettingsLegal → t.SettingsLegal
  unbarred : s.jobs.Unbarred s.env → t.jobs.Unbarred t.env

variable {s0 s : State}

theorem State.Keeps.refl (s : State) : State.Keeps s s := ⟨id, id, id, id⟩

theorem State.Keeps.trans {t : State} (h : State.Keeps s0 s) (h' : State.Keeps s t) : State.Keeps s0 t :=
  ⟨h'.loop ∘ h.loop, h'.flight ∘ h.flight, h'.legal ∘ h.legal, h'.unbarred ∘ h.unbarred⟩

/-- Settings drawn from those in force, stored and being stored are legal with them. -/
theorem State.SettingsLegal.of_kept {t : State} (h : s.SettingsLegal) (hset : t.env.set.Legal)
    (hj : Jobs.Kept s.env.set s.jobs t.jobs) : t.SettingsLegal := by
  obtain ⟨hlive, himage, hstoring⟩ := h
  have hall : ∀ x, t.jobs.Holds x → x.Legal := fun x hx =>
    (hj.stored x hx).elim (fun he => he ▸ hlive) (fun hs => hs.elim (himage x) (hstoring x))
  exact ⟨hset, fun x hx => hall x (.inl hx), fun x hx => hall x (.inr hx)⟩

/-- A change by the blocks, with all that it causes. -/
theorem State.Keeps.changeSet (h : State.Keeps s0 s) (f : Part → Part)
    (hset : s.env.set.Legal → (f s.part).1.set.Legal) (hj : Jobs.Kept s.env.set s.jobs (f s.part).2) :
    State.Keeps s0 (s.change f) := by
  have hk : Jobs.Kept s.env.set s.jobs (s.change f).jobs := hj.moves (Jobs.moves_complete ..)
  exact h.trans ⟨id, hk.flight, fun hl => hl.of_kept (hset hl.1) hk,
    fun _ => Jobs.settle_unbarred (observe_discordSettled ..)⟩

theorem State.Keeps.change (h : State.Keeps s0 s) (f : Part → Part) (hf : Part.Kept s.env.set s.part (f s.part)) :
    State.Keeps s0 (s.change f) :=
  h.changeSet f (fun hl => hf.set.symm ▸ hl) hf.jobs

theorem State.Keeps.work (h : State.Keeps s0 s) (f : Env → Jobs → Jobs)
    (hf : Jobs.Kept s.env.set s.jobs (f s.env s.jobs)) : State.Keeps s0 (s.work f) :=
  h.changeSet (fun p => (p.1, f p.1 p.2)) id hf

/-- Counters and the settings store, which cause nothing else. -/
theorem State.Keeps.tally (h : State.Keeps s0 s) (f : Jobs → Jobs) (hf : Jobs.Kept s.env.set s.jobs (f s.jobs))
    (hq : (f s.jobs).queue = s.jobs.queue := by rfl) (ha : (f s.jobs).acts = s.jobs.acts := by rfl)
    (hp : (f s.jobs).fill = s.jobs.fill := by rfl) (ht : (f s.jobs).tele = s.jobs.tele := by rfl) :
    State.Keeps s0 (s.tally f) :=
  h.trans ⟨id, hf.flight, fun hl => hl.of_kept (t := s.tally f) hl.1 hf, fun ⟨hb, hd⟩ =>
    ⟨(congrArg FillPlan.startBar hp).trans hb, hd.congr hq ha (congrArg (fun t => (Tele.cond t .actuatorDiscord).active) ht)⟩⟩

theorem State.Keeps.count (h : State.Keeps s0 s) (f : Counters → Counters) : State.Keeps s0 (s.tally (Jobs.count f)) :=
  h.tally _ (Jobs.Kept.refl ..).same

theorem State.Keeps.countBad (h : State.Keeps s0 s) (p : Port) : State.Keeps s0 (s.tally (Jobs.countBad p)) := by
  cases p with
  | field => exact h.count fun c => { c with bad3F := c.bad3F + 1#32 }
  | line => exact h.count fun c => { c with bad4L := c.bad4L + 1#32 }

/-- The Loop interface's own fields. -/
theorem State.Keeps.withLoop (h : State.Keeps s0 s) (l : Loop) (hl : s.loop.Bounded → l.Bounded) :
    State.Keeps s0 { s with loop := l } :=
  h.trans ⟨hl, id, id, id⟩

theorem State.Keeps.creditWatch (h : State.Keeps s0 s) : State.Keeps s0 s.creditWatch := h.withLoop _ id

theorem State.Keeps.settled (h : State.Keeps s0 s) : State.Keeps s0 s.settled := by
  have hk : Jobs.Kept s.env.set s.jobs s.settled.jobs := (Jobs.Kept.refl ..).moves (Jobs.moves_settle ..)
  exact h.trans ⟨id, hk.flight, fun hl => hl.of_kept (t := s.settled) hl.1 hk, fun hu => Jobs.settle_unbarred hu.2⟩

theorem State.Keeps.offer (h : State.Keeps s0 s) (p : Port) (bs : List Byte) : State.Keeps s0 (s.offer p bs) := by
  have hcount : ∀ (l : Loop) (b : Bool), (s.loop.Bounded → l.Bounded) →
      State.Keeps s0 { s with loop := l, jobs := s.jobs.countDisplaced b } := by
    intro l b hl
    cases b with
    | false => exact h.withLoop l hl
    | true => exact (h.withLoop l hl).count fun c => { c with displaced7 := c.displaced7 + 1#32 }
  cases p with
  | line => exact hcount _ _ fun hb => hb.offerL bs
  | field => exact hcount _ _ fun hb => hb.offerF bs

/-! ## Resets -/

theorem Loop.bounded_powerOn : Loop.powerOn.Bounded := by decide

/-- What follows a reset takes tellings, and so settles the discord marks. -/
theorem Jobs.unbarred_resetTaken (e : Env) (j : Jobs) : (j.resetTaken e).Unbarred e :=
  Jobs.settle_unbarred_of_work (by simp [Jobs.firstEvaluations, Jobs.tell])

theorem State.Keeps.restart (h : State.Keeps s0 s) (set : Settings)
    (hset : set = s.env.set ∨ set ∈ s.jobs.store.image) : State.Keeps s0 (s.restart set) := by
  have hj : Jobs.Kept s.env.set s.jobs (s.restart set).jobs := by
    have h0 : Jobs.Kept s.env.set s.jobs (s.jobs.restarted (s.env.restarted set)) :=
      ⟨fun _ => ⟨Nat.zero_le _, List.nodup_nil⟩, fun _ => .inr⟩
    unfold State.restart
    exact (((h0.same (j' := Jobs.tele' ..)).raiseWhen ..).raiseWhen ..).tariffChange .. |>.trans (Jobs.kept_resetTaken ..)
  exact h.trans ⟨fun _ => Loop.bounded_powerOn, hj.flight,
    fun hl => hl.of_kept (hset.elim (fun he => he ▸ hl.1) (hl.2.1 set)) hj, fun _ => Jobs.unbarred_resetTaken ..⟩

theorem Store.loaded_legal {x : Store} (h : ∀ y ∈ x.image, y.Legal) : x.loaded.Legal := by
  unfold Store.loaded
  split
  · next image hi =>
    split
    · exact h image hi
    · exact .factory
  · exact .factory

theorem State.keeps_powerUp (s : State) : State.Keeps s s.powerUp := by
  have hj : ∀ e : Env, Jobs.Kept s.env.set s.jobs (s.powerUp.jobs) := by
    intro e
    have h0 : Jobs.Kept s.env.set s.jobs (Jobs.atPowerOn (Env.atPowerOn s.jobs.store.survive.loaded) s.jobs.store.survive
        s.jobs.choices) :=
      ⟨fun _ => ⟨Nat.zero_le _, List.nodup_nil⟩, fun x hx => .inr (hx.elim .inl fun hn => by cases hn)⟩
    exact (((h0.same (j' := Jobs.raise ..)).raiseWhen ..).raiseWhen ..).trans (Jobs.kept_resetTaken ..)
  exact ⟨fun _ => Loop.bounded_powerOn, (hj s.env).flight,
    fun hl => hl.of_kept (Store.loaded_legal hl.2.1) (hj s.env), fun _ => Jobs.unbarred_resetTaken ..⟩

theorem Jobs.act_powerOn (x : Store) (i : Nat) : (Jobs.powerOn x).act i = .powerOn := by
  unfold Jobs.act Jobs.powerOn
  rw [List.getD_eq_getElem?_getD, List.getElem?_replicate]
  split <;> rfl

theorem State.keeps_powerDown (s : State) : State.Keeps s s.powerDown := by
  refine ⟨fun _ => Loop.bounded_powerOn, fun _ => ⟨Nat.zero_le _, List.nodup_nil⟩,
    fun hl => ⟨.factory, hl.2.1, fun x hx => by cases hx⟩, fun _ => ⟨rfl, fun i _ hm => ?_, .inr rfl⟩⟩
  have hact : s.powerDown.jobs.act i = .powerOn := Jobs.act_powerOn s.jobs.store.survive i
  rw [hact] at hm
  cases hm

/-! ## Requests (spec/11) -/

theorem State.Keeps.answer (h : State.Keeps s0 s) (r : Request) (res : Result) (d : List Byte) :
    State.Keeps s0 (s.answer r res d) := h.offer ..

theorem State.Keeps.recall (h : State.Keeps s0 s) (r : Request) : State.Keeps s0 (s.recall r) := by
  unfold State.recall
  split
  · next image _ hi => exact h.restart image (.inr hi)
  · exact h.answer ..

theorem State.Keeps.setLock (h : State.Keeps s0 s) (b : Bool) : State.Keeps s0 (s.setLock b) :=
  h.trans ⟨id, id, fun hl => ⟨hl.1, hl.2⟩, id⟩

theorem Request.write_legal {set new : Settings} {r : Request} (h : set.Legal) (hw : r.write set = some new) : new.Legal := by
  unfold Request.write at hw
  split at hw
  · cases hw
  · split at hw
    · exact h.writeTable hw
    · cases hw

theorem State.Keeps.carryOut (h : State.Keeps s0 s) (r : Request) : State.Keeps s0 (s.carryOut r) := by
  unfold State.carryOut
  split
  · exact h.answer ..
  · split
    · next t new _ hw =>
      have hk := Part.kept_ownerTold (live := s.env.set) t r.index r.group s.env.set ({ s.env with set := new }, s.jobs)
      exact (h.changeSet _ (fun hl => hk.set.symm ▸ Request.write_legal hl hw) hk.jobs).answer ..
    · exact h
  · exact h.answer ..
  · split
    · exact (h.work _ (Jobs.Kept.refl ..).same).answer ..
    · exact h
  · exact (h.work _ ((Jobs.Kept.refl ..).clearFault _)).answer ..
  · exact h.work _ ((Jobs.Kept.refl ..).takeStore r)
  · exact h.recall r
  · exact h.restart _ (.inl rfl)
  · exact (h.setLock true).answer ..
  · exact (h.setLock false).answer ..
  · exact (h.work _ (Jobs.Kept.refl ..).releaseTrip).answer ..
  · exact h

theorem State.Keeps.manage (h : State.Keeps s0 s) (p : Port) (bs : List Byte) : State.Keeps s0 (s.manage p bs) := by
  unfold State.manage
  split
  · exact h.count _
  · split
    · exact h.answer ..
    · exact h.carryOut _

/-! ## Arrivals (spec/01) -/

/-- A fold of changes. -/
theorem State.Keeps.foldl {β : Type} (f : State → β → State) (l : List β)
    (hf : ∀ {s : State} (b : β), State.Keeps s0 s → State.Keeps s0 (f s b)) (h : State.Keeps s0 s) :
    State.Keeps s0 (l.foldl f s) := by
  induction l generalizing s with
  | nil => exact h
  | cons b l ih => exact ih (hf b h)

theorem State.Keeps.takeSample (h : State.Keeps s0 s) (bs : List Byte) : State.Keeps s0 (s.takeSample bs) := by
  unfold State.takeSample
  split
  · exact .foldl _ _ (fun x hs => hs.change _ (Part.kept_takeItem ..)) h
  · exact h.countBad .field

theorem State.Keeps.takeStatus (h : State.Keeps s0 s) (bs : List Byte) : State.Keeps s0 (s.takeStatus bs) := by
  unfold State.takeStatus
  split
  · exact .foldl _ _ (fun x hs => hs.work _ ((Jobs.Kept.refl ..).statusItem ..)) h
  · exact h

theorem State.Keeps.takeAck (h : State.Keeps s0 s) (bs : List Byte) : State.Keeps s0 (s.takeAck bs) := by
  unfold State.takeAck
  split
  · exact .foldl _ _ (fun x hs => hs.work _ ((Jobs.Kept.refl ..).ackItem ..)) h
  · exact h.countBad .field

theorem State.Keeps.forwardUp (h : State.Keeps s0 s) (bs : List Byte) : State.Keeps s0 (s.forwardUp bs) := by
  unfold State.forwardUp
  split
  · exact h.offer ..
  · exact h

theorem State.Keeps.classifyField (h : State.Keeps s0 s) (bs : List Byte) : State.Keeps s0 (s.classifyField bs) := by
  unfold State.classifyField
  dsimp only
  split
  · exact (h.takeSample bs).forwardUp bs
  · split
    · exact (h.takeStatus bs).forwardUp bs
    · split
      · split
        · exact h.takeAck bs
        · split
          · exact h.manage ..
          · exact h.countBad .field
      · split
        · exact h
        · exact h.offer ..

theorem State.Keeps.takeClock (h : State.Keeps s0 s) (bs : List Byte) : State.Keeps s0 (s.takeClock bs) := by
  unfold State.takeClock
  split
  · exact h.countBad .line
  · refine h.change _ ⟨rfl, ?_⟩
    exact (((((Jobs.Kept.refl ..).countJump ..).same (j' := Jobs.clockTaken ..)).tariffChange ..)).same

theorem State.Keeps.takeCommand (h : State.Keeps s0 s) (i : Nat) (bs : List Byte) : State.Keeps s0 (s.takeCommand i bs) :=
  .foldl _ _ (fun _ hs => hs.work _ ((Jobs.Kept.refl ..).operatorItem ..)) h

theorem State.Keeps.takeCredit (h : State.Keeps s0 s) (bs : List Byte) : State.Keeps s0 (s.takeCredit bs) := by
  unfold State.takeCredit
  split
  · next n hn =>
    obtain ⟨x, -, hx⟩ := Option.bind_eq_some_iff.mp hn
    exact h.withLoop _ fun ⟨_, hb⟩ => ⟨creditAfter_le hx, hb⟩
  · exact h.countBad .line

theorem State.Keeps.classifyLine (h : State.Keeps s0 s) (bs : List Byte) : State.Keeps s0 (s.classifyLine bs) := by
  unfold State.classifyLine
  dsimp only
  split
  · split
    · exact h.takeCommand ..
    · exact h
  · split
    · exact h.count _
    · split
      · exact h.work _ (Jobs.Kept.refl ..).operatorFence
      · split
        · exact (h.takeClock bs).offer ..
        · split
          · exact h.takeClock bs
          · split
            · exact h.takeCredit bs
            · split
              · exact h.manage ..
              · split
                · exact h.countBad .line
                · split
                  · exact h
                  · exact h.offer ..

theorem State.Keeps.goodArrival (h : State.Keeps s0 s) (p : Port) : State.Keeps s0 (s.goodArrival p) := by
  cases p with
  | line => exact h.count _
  | field =>
    exact ((h.withLoop { s.loop with badRun := 0 } fun ⟨hc, hl, hf, hs, _⟩ => ⟨hc, hl, hf, hs, Nat.zero_le _⟩).count
      _).work _ (Jobs.Kept.refl ..).same

theorem State.Keeps.badArrival (h : State.Keeps s0 s) (p : Port) : State.Keeps s0 (s.badArrival p) := by
  cases p with
  | line => exact h.countBad .line
  | field =>
    have hk := (h.countBad .field).withLoop { s.loop with badRun := min Config.badRunMax (s.loop.badRun + 1) }
      fun ⟨hc, hl, hf, hs, _⟩ => ⟨hc, hl, hf, hs, Nat.min_le_left ..⟩
    unfold State.badArrival
    dsimp only
    split
    · exact hk.work _ (Jobs.Kept.refl ..).same
    · exact hk

theorem State.Keeps.arrive (h : State.Keeps s0 s) (p : Port) (bs : List Byte) : State.Keeps s0 (s.arrive p bs) := by
  unfold State.arrive
  split
  · cases p with
    | field => exact ((h.goodArrival .field).change _ (Part.kept_heard ..)).classifyField bs
    | line => exact (h.goodArrival .line).classifyLine bs
  · exact h.badArrival p

/-! ## Sends (spec/01) -/

theorem State.Keeps.lineSend (h : State.Keeps s0 s) (bs : List Byte) (f : Tele → TeleEnv → Tele) :
    State.Keeps s0 (s.lineSend bs f) :=
  (h.withLoop { s.loop with lTx := some bs, credits := s.loop.credits - 1 } fun ⟨hc, hb⟩ =>
    ⟨(Nat.sub_le ..).trans hc, hb⟩).work _ (Jobs.Kept.refl ..).same

theorem State.Keeps.sendReport (h : State.Keeps s0 s) : State.Keeps s0 s.sendReport :=
  (h.withLoop { s.loop with streak := 0, turn := .forward } fun ⟨hc, hl, hf, _, hb⟩ =>
    ⟨hc, hl, hf, Nat.zero_le _, hb⟩).lineSend ..

theorem State.Keeps.sendForwarded (h : State.Keeps s0 s) {bs : List Byte} {rest : List (List Byte)}
    (hq : s.loop.lQueue = bs :: rest) : State.Keeps s0 (s.sendForwarded bs rest) :=
  ((h.withLoop { s.loop with streak := 0, turn := .report, lQueue := rest } fun ⟨hc, hl, hf, _, hb⟩ =>
    ⟨hc, by rw [hq] at hl; exact (Nat.le_succ _).trans hl, hf, Nat.zero_le _, hb⟩).count _).lineSend ..

/-- R16: the urgent cell is sent only while the streak leaves room for it. -/
theorem State.Keeps.sendUrgent (h : State.Keeps s0 s)
    (hs : s.loop.streak ≠ Config.streakMax ∨ s.routineWaits = false) : State.Keeps s0 s.sendUrgent := by
  refine (h.withLoop { s.loop with streak := if s.routineWaits then s.loop.streak + 1 else 0 }
    fun ⟨hc, hl, hf, hk, hb⟩ => ⟨hc, hl, hf, ?_, hb⟩).lineSend ..
  dsimp only
  split
  · next hr => exact Nat.lt_of_le_of_ne hk (hs.resolve_right (by simp [hr]))
  · exact Nat.zero_le _

theorem State.Keeps.lineArbiter (h : State.Keeps s0 s) : State.Keeps s0 s.lineArbiter := by
  unfold State.lineArbiter
  split
  · split
    · next hu =>
      simp only [Bool.and_eq_true, Bool.not_eq_true', Bool.and_eq_false_iff, beq_eq_false_iff_ne] at hu
      exact h.sendUrgent hu.2
    · unfold State.sendRoutine
      split
      · next hq =>
        split
        · exact h.sendReport
        · exact h.sendForwarded hq
      · exact h.sendReport
  · exact h

theorem State.Keeps.fieldArbiter (h : State.Keeps s0 s) : State.Keeps s0 s.fieldArbiter := by
  unfold State.fieldArbiter
  split
  · exact h
  · split
    · next i a o hr =>
      exact (h.withLoop { s.loop with fTx := some (commandCell s.env.set i a) } id).work (fun e j => j.issue e i a o)
        (Jobs.kept_issue hr)
    · split
      · next bs rest hq =>
        exact (h.withLoop { s.loop with fTx := some bs, fQueue := rest } fun ⟨hc, hl, hf, hb⟩ =>
          ⟨hc, hl, by rw [hq] at hf; exact (Nat.le_succ _).trans hf, hb⟩).count _
      · exact h

/-! ## The other commands -/

theorem State.Keeps.creditWaitExpiry (h : State.Keeps s0 s) : State.Keeps s0 s.creditWaitExpiry := by
  unfold State.creditWaitExpiry
  split
  · exact (h.withLoop { s.loop with creditWait := none } id).work _ (Jobs.Kept.refl ..).same
  · exact h

theorem State.Keeps.stored (h : State.Keeps s0 s) (f : Jobs → Store → Store)
    (hf : Store.Draws s.env.set s.jobs.store (f s.jobs s.jobs.store)) :
    State.Keeps s0 (s.tally fun j => j.stored (f j)) :=
  h.tally _ ((Jobs.Kept.refl ..).ofDraws _ hf)

theorem State.Keeps.storeCompletes (h : State.Keeps s0 s) : State.Keeps s0 s.storeCompletes := by
  have ha : State.Keeps s0 s.answerStore := by
    unfold State.answerStore
    split
    · exact h
    · exact h.offer ..
  unfold State.storeCompletes
  split
  · exact ((ha.count _).work _ (Jobs.Kept.refl ..).same).stored (fun j => Store.completed j.guard.latch)
      (Store.draws_completed _ _ _)
  · exact h

/-- Every effect of a command keeps the invariants. -/
theorem State.Keeps.effect (h : State.Keeps s0 s) (c : Instr) : State.Keeps s0 (effectOf c s) := by
  have h0 := Jobs.Kept.refl s.env.set s.jobs
  cases c
  case powerOn | powerLoss => exact h
  case deferredStoreBegin =>
    show State.Keeps s0 s.deferredStore
    unfold State.deferredStore
    split
    · exact h.stored (fun j => Store.beginNext s.env.set j.guard.latch) (Store.draws_beginNext _ _ _)
    · exact h
  case latchWordWriteDeferred =>
    show State.Keeps s0 s.deferredWrite
    unfold State.deferredWrite
    split
    · exact h.stored (fun j => Store.beginNext s.env.set j.guard.latch) (Store.draws_beginNext _ _ _)
    · exact h
  case latchWordWriteCompletion =>
    exact h.stored (fun j => Store.wordWritten s.env.set j.guard.latch) (Store.draws_wordWritten _ _ _)
  case storeCompletion => exact h.storeCompletes
  case transmitCompletion p => cases p <;> exact h.withLoop _ id
  case lPortSendBegin => exact h.lineArbiter
  case fPortSendBegin => exact h.fieldArbiter
  case secondTick => exact h.change _ (Part.kept_tick _)
  case minuteBoundary => exact h.change _ (Part.kept_minuteTick _)
  case creditWaitExpiry => exact h.creditWaitExpiry
  case staleTimerExpiry a => exact h.change _ (Part.kept_staleExpiry a _)
  case splitTimerExpiry => exact h.work _ h0.splitExpiry
  case restTimerExpiry i => exact h.work _ (h0.restExpiry i)
  case ackTimeoutExpiry i => exact h.work _ (h0.ackTimeout i)
  case valveTravelExpiry i => exact h.work _ (h0.travelTimeout i)
  case holdTimerExpiry i => exact h.work _ (h0.moves (Jobs.Moves.refl.endHold ..))
  case clockStaleExpiry => exact h.change _ (Part.kept_clockStaleExpiry _)
  case proveTimerExpiry n => exact h.work _ (h0.proveExpiry n)
  case dryTimerExpiry n => exact h.work _ (h0.dryExpiry n)
  case blindStartTimerExpiry => exact h.work _ h0.blindStartExpiry
  case heaterProveTimerExpiry z => exact h.work _ (h0.heaterProveExpiry z)
  case pulseTimerExpiry | minimumTimerExpiry | maximumTimerExpiry | packHoldExpiry => exact h.work _ h0.same
  all_goals exact h.arrive ..

/-- Every command keeps the invariants. -/
theorem exec_keeps {c : Instr} {s t : State} (h : exec c s = .next t) : State.Keeps s t := by
  rw [exec_eq] at h
  cases h
  split
  · exact s.keeps_powerUp
  · split
    · exact s.keeps_powerDown
    · unfold State.powerCommand
      split
      · exact ((State.Keeps.refl s).settled.effect c).creditWatch
      · exact .refl s

/-- Every step keeps the invariants; an idle part stays as it is. -/
theorem step_keeps {s t : State} (h : step s = .next t) : State.Keeps s t := by
  unfold step at h
  split at h
  · cases h; exact .refl s
  · next rest _ => exact State.Keeps.trans (s := { s with pending := rest }) ⟨id, id, id, id⟩ (exec_keeps h)

end Sys2Proof.Machine

open Sys2Proof Sys2Proof.Machine

/-- Settles O4: every effect keeps the bounds (`State.Keeps`). -/
theorem stepKeepsLoopBounds : Obligations.StepKeepsLoopBounds := by
  intro s t hl hf h
  exact ⟨(step_keeps h).loop hl, (step_keeps h).flight hf⟩

/-- Settles O6: every write is checked, and the settings store holds no settings but those in force. -/
theorem stepKeepsSettingsLegal : Obligations.StepKeepsSettingsLegal := by
  intro s t hl h
  exact (step_keeps h).legal hl
end

section
/-!
PROOFS. The CREDIT_WAIT timer after a command (R14), and the state right after reset.
-/

namespace Sys2Proof.Machine

variable {s t : State}

/-- R14: the timer runs after a command exactly while a candidate waits without credits and LINE_STALLED is inactive. -/
theorem State.creditWatch_isSome (s : State) : s.creditWatch.loop.creditWait.isSome = true
    ↔ s.loop.credits = 0 ∧ s.candidateWaits = true ∧ s.jobs.active .lineStalled = false := by
  unfold State.creditWatch
  dsimp only
  split
  · next h =>
    have hs : ∀ o : Timer, (match o with
        | some t => some t
        | none => s.env.after s.env.set.general.creditWait).isSome = true := fun o => by cases o <;> rfl
    exact iff_of_true (hs _) (by simpa using h)
  · next h => exact iff_of_false (by simp) (by simpa using h)

/-- Every command ends by the CREDIT_WAIT rule, while the part has power. -/
theorem exec_watched {c : Instr} (h : exec c s = .next t) (hp : t.powered = true) : ∃ u : State, t = u.creditWatch := by
  rw [exec_eq] at h
  cases h
  split
  · exact ⟨_, rfl⟩
  · split
    · next hoff => rw [if_neg (by rw [hoff]; decide), if_pos hoff] at hp; cases hp
    · unfold State.powerCommand at hp ⊢
      split
      · exact ⟨_, rfl⟩
      · next hn => simp_all

end Sys2Proof.Machine

open Sys2Proof Sys2Proof.Machine

/-- Settles O11. -/
theorem creditWaitRunsWhileStalled : Obligations.CreditWaitRunsWhileStalled := by
  refine ⟨fun c s t h hp => ?_, fun c s t hs h hp hw => ?_⟩
  · obtain ⟨u, rfl⟩ := exec_watched h hp
    exact u.creditWatch_isSome
  · obtain ⟨-, -, hbar, hmarks⟩ := hs
    exact ⟨hp, hw, (exec_keeps h).unbarred ⟨hbar, hmarks⟩⟩

/-- Settles O2: the reset state as it stands. -/
theorem resetLeavesSpecValues : Obligations.ResetLeavesSpecValues := by
  refine ⟨rfl, rfl, rfl, rfl, rfl, rfl, rfl, rfl, fun k => ?_, rfl, rfl, rfl, fun i => ?_⟩
  · cases k <;> decide
  · have hact : State.reset.jobs.act i = .powerOn := Jobs.act_powerOn Store.never i
    rw [hact]
    exact ⟨rfl, rfl⟩

/-- Settles O3: the reset state as it stands; no settings are stored yet, and no actuator has a record to speak of. -/
theorem invariantsHoldAtReset : Obligations.InvariantsHoldAtReset := by
  have hact : ∀ i, State.reset.jobs.act i = .powerOn := Jobs.act_powerOn Store.never
  have unstored : ∀ {P : Settings → Prop}, ∀ x ∈ (none : Option Settings), P x := fun x hx => nomatch hx
  have hready : State.reset.Ready :=
    ⟨rfl, rfl, rfl, fun i _ hm => (by rw [hact] at hm; cases hm), .inr (by decide)⟩
  have hshaped : State.reset.Shaped :=
    ⟨by decide, by decide, by decide, by decide, by decide, by decide, by decide, by decide, by decide, unstored, unstored⟩
  have hqueue : State.reset.QueueKept :=
    ⟨by decide, fun i hi => (nomatch hi : False).elim, by decide, by decide, unstored, unstored⟩
  have halert : State.reset.jobs.tele.AlertFollows State.reset.env.set.alerts := fun _ =>
    iff_of_true rfl ((Tele.alertLevel_iff (teleEnv State.reset.env State.reset.jobs) _).mp (by decide))
  have hbounds : State.reset.jobs.tele.Bounds :=
    ⟨by decide, by decide, by decide, by decide, by decide, by decide, by decide, by decide⟩
  exact ⟨by decide, by decide, (Tele.bounded_iff _).mpr hbounds, halert, fun _ => rfl, ⟨.factory, unstored, unstored⟩,
    fun h => (by cases h), hshaped, hready, hqueue⟩

/-- Settles O20. -/
theorem transmitCompletionFreesPort : Obligations.TransmitCompletionFreesPort := fun s hs =>
  ⟨exec_ready (c := .transmitCompletion .line) hs (by decide) (by decide),
    exec_ready (c := .transmitCompletion .field) hs (by decide) (by decide)⟩
end

section
/-!
PROOFS. Cells that the part originates: their check, and what reads back from them (R2, R18, R20).
-/

namespace Sys2Proof.Machine

theorem byteOf_toNat {n : Nat} (h : n < 256) : (byteOf n).toNat = n := by
  unfold byteOf
  rw [BitVec.toNat_ofNat]
  exact Nat.mod_eq_of_lt h

theorem checkBytes_length (c : Check) : (checkBytes c).length = 2 := rfl

theorem slotBytes_length (slots : List Slot) : (slots.flatMap Slot.bytes).length = 4 * slots.length := by
  induction slots with
  | nil => rfl
  | cons x l ih => rw [List.flatMap_cons, List.length_append, ih, List.length_cons, Nat.mul_succ, Nat.add_comm]; rfl

/-- Slots sent one after the other are read back. -/
theorem slotsOf_bytes (slots : List Slot) : slotsOf (slots.flatMap Slot.bytes) = slots := by
  induction slots with
  | nil => rfl
  | cons x l ih =>
    show slotsOf (x.b0 :: x.b1 :: x.b2 :: x.b3 :: l.flatMap Slot.bytes) = x :: l
    rw [slotsOf, ih]

/-- The info byte of a cell of `n` slots. -/
theorem infoByte_toNat {n : Nat} (h : n ≤ 3) (urgent : Bool) :
    (byteOf (n % 4 + if urgent then 128 else 0)).toNat = n + if urgent then 128 else 0 := by
  rw [byteOf_toNat (by cases urgent <;> simp <;> omega), Nat.mod_eq_of_lt (by omega)]

theorem cellBody_length (kind dest src : Nat) (urgent : Bool) (slots : List Slot) :
    (cellBody kind dest src urgent slots).length = 4 + 4 * slots.length := by
  unfold cellBody
  rw [List.length_append, slotBytes_length]
  rfl

/-- R2: a closed cell passes the check, once its length is that of its slot count. -/
theorem goodCell_closeCell {body : List Byte} (h : body.length = 4 + 4 * cellSlotCount (closeCell body)) :
    goodCell (closeCell body) = true := by
  have hlen : (closeCell body).length = body.length + 2 := by
    unfold closeCell
    rw [List.length_append, checkBytes_length]
  have htwo : (closeCell body).length - 2 = body.length := by omega
  unfold goodCell
  rw [htwo, Bool.and_eq_true, beq_iff_eq, beq_iff_eq]
  refine ⟨by omega, ?_⟩
  unfold closeCell
  rw [List.take_left, List.drop_left]

/-- R2: a good cell is 6 to 18 bytes long. -/
theorem goodCell_length {bs : List Byte} (h : goodCell bs = true) : bs.length = 6 + 4 * cellSlotCount bs := by
  unfold goodCell at h
  rw [Bool.and_eq_true, beq_iff_eq] at h
  exact h.1

theorem cellSlotCount_lt (bs : List Byte) : cellSlotCount bs < 4 := Nat.mod_lt _ (by decide)

section BuildCell

variable {kind dest src : Nat} {urgent : Bool} {slots : List Slot}

/-- The header of a built cell, and the bytes after it. -/
theorem buildCell_eq : ∃ rest, buildCell kind dest src urgent slots =
    byteOf kind :: byteOf (dest % 64) :: byteOf (src % 64)
      :: byteOf (slots.length % 4 + if urgent then 128 else 0) :: (slots.flatMap Slot.bytes ++ rest) :=
  ⟨checkBytes (crc16 (cellBody kind dest src urgent slots)), by simp [buildCell, closeCell, cellBody]⟩

theorem cellSlotCount_buildCell (h : slots.length ≤ 3) :
    cellSlotCount (buildCell kind dest src urgent slots) = slots.length := by
  obtain ⟨rest, hb⟩ := buildCell_eq (kind := kind) (dest := dest) (src := src) (urgent := urgent) (slots := slots)
  rw [hb]
  show (byteOf _).toNat % 4 = _
  rw [infoByte_toNat h]
  cases urgent <;> simp <;> omega

theorem goodCell_buildCell (h : slots.length ≤ 3) : goodCell (buildCell kind dest src urgent slots) = true := by
  refine goodCell_closeCell ?_
  rw [cellBody_length]
  exact congrArg (4 + 4 * ·) (cellSlotCount_buildCell h).symm

theorem cellKind_buildCell (h : kind < 256) : cellKind (buildCell kind dest src urgent slots) = kind := by
  obtain ⟨rest, hb⟩ := buildCell_eq (kind := kind) (dest := dest) (src := src) (urgent := urgent) (slots := slots)
  rw [hb]
  exact byteOf_toNat h

theorem cellDest_buildCell : cellDest (buildCell kind dest src urgent slots) = dest % 64 := by
  obtain ⟨rest, hb⟩ := buildCell_eq (kind := kind) (dest := dest) (src := src) (urgent := urgent) (slots := slots)
  rw [hb]
  show (byteOf (dest % 64)).toNat % 64 = _
  rw [byteOf_toNat (by omega), Nat.mod_mod]

theorem cellSource_buildCell : cellSource (buildCell kind dest src urgent slots) = src % 64 := by
  obtain ⟨rest, hb⟩ := buildCell_eq (kind := kind) (dest := dest) (src := src) (urgent := urgent) (slots := slots)
  rw [hb]
  show (byteOf (src % 64)).toNat % 64 = _
  rw [byteOf_toNat (by omega), Nat.mod_mod]

theorem cellSlots_buildCell (h : slots.length ≤ 3) : cellSlots (buildCell kind dest src urgent slots) = slots := by
  unfold cellSlots
  rw [cellSlotCount_buildCell h]
  obtain ⟨rest, hb⟩ := buildCell_eq (kind := kind) (dest := dest) (src := src) (urgent := urgent) (slots := slots)
  rw [hb]
  show slotsOf ((slots.flatMap Slot.bytes ++ rest).take (4 * slots.length)) = slots
  rw [List.take_left' (slotBytes_length slots), slotsOf_bytes]

theorem infoByte_buildCell (h : slots.length ≤ 3) : (byteAt (buildCell kind dest src urgent slots) 3).msb = urgent := by
  obtain ⟨rest, hb⟩ := buildCell_eq (kind := kind) (dest := dest) (src := src) (urgent := urgent) (slots := slots)
  rw [hb]
  show (byteOf _).msb = urgent
  rw [BitVec.msb_eq_decide, infoByte_toNat h]
  cases urgent with
  | true => simp
  | false =>
    simp
    omega

end BuildCell

end Sys2Proof.Machine

open Sys2Proof Sys2Proof.Machine

/-- Settles O12. -/
theorem originatedCellsAreGood : Obligations.OriginatedCellsAreGood := by
  refine ⟨fun kind dest src urgent slots hk hs => ?_, fun bs h => ?_⟩
  · exact ⟨goodCell_buildCell hs, cellKind_buildCell hk, cellDest_buildCell, cellSource_buildCell, cellSlots_buildCell hs,
      infoByte_buildCell hs⟩
  · have hlen := goodCell_length h
    have hcount := cellSlotCount_lt bs
    omega
end

section
/-!
PROOFS. The Loop interface (spec/01): forwarded queues, bad cells, credits, the two arbiters and CREDIT_WAIT.
-/

namespace Sys2Proof.Machine

variable {s : State} {bs : List Byte}

/-! ## Raises and clears on a settled part cause nothing else -/

/-- On a settled part, an operation of the Condition and Report units that leaves the mark of ACTUATOR_DISCORD is all that
happens. -/
theorem State.work_tele (hs : s.Settled) (f : Env → Jobs → Jobs)
    (hf : f s.env s.jobs = { s.jobs with tele := (f s.env s.jobs).tele })
    (hd : (f s.env s.jobs).active .actuatorDiscord = s.jobs.active .actuatorDiscord) :
    s.work f = { s with jobs := f s.env s.jobs } := by
  have hfig : figures s.env (f s.env s.jobs) = figures s.env s.jobs := by rw [hf]; rfl
  obtain ⟨hw, hb, -⟩ := id hs
  exact State.work_quiet hs (by rw [hf]) (by rw [hf]) (by rw [hf]; exact hw) (by rw [hf]; exact hb) hfig hd

theorem State.work_raise (hs : s.Settled) {k : CondKind} (hk : CondKind.actuatorDiscord ≠ k) :
    s.work (fun e j => j.raise e k) = { s with jobs := s.jobs.raise s.env k } :=
  State.work_tele hs _ rfl (congrArg Prod.fst (Tele.flags_raise_ne _ hk _))

/-- R149: after a raise the kind is active. -/
theorem Jobs.raise_active (e : Env) (k : CondKind) {j : Jobs} (h : j.tele.conds.length = 22) :
    (j.raise e k).active k = true := by
  have hf := Tele.flags_raise_self (teleEnv e j) k j.tele h
  have ha : (j.raise e k).active k = (((j.tele.raise (teleEnv e j) k)).flags k).1 := rfl
  rw [ha, hf]
  split
  · next hact => exact hact
  · rfl

theorem State.Shaped.conds (h : s.Shaped) : s.jobs.tele.conds.length = 22 := by
  obtain ⟨-, -, -, -, -, -, -, h, -⟩ := h
  exact h

theorem State.Shaped.acts (h : s.Shaped) : s.jobs.acts.length = 12 := by
  obtain ⟨-, -, -, h, -⟩ := h
  exact h

/-! ## Full forwarded queues (R9, R10) -/

theorem displaces_iff : displaces bs = true ↔ cellKind bs = kindSample ∨ cellKind bs = kindStatus ∨ cellKind bs = kindMgmtRsp := by
  simp [displaces, or_assoc]

theorem dropSample_none {l : List (List Byte)} (h : ∀ x ∈ l, cellKind x ≠ kindSample) : dropSample l = none := by
  induction l with
  | nil => rfl
  | cons x l ih =>
    unfold dropSample
    rw [if_neg (h x List.mem_cons_self), ih fun y hy => h y (List.mem_cons_of_mem _ hy)]
    rfl

/-- The oldest SAMPLE cell leaves; the others keep their order. -/
theorem dropSample_append {before after : List (List Byte)} {old : List Byte} (hold : cellKind old = kindSample)
    (h : ∀ x ∈ before, cellKind x ≠ kindSample) : dropSample (before ++ old :: after) = some (before ++ after) := by
  induction before with
  | nil =>
    rw [List.nil_append, dropSample, if_pos hold]
    rfl
  | cons x l ih =>
    rw [List.cons_append, dropSample, if_neg (h x List.mem_cons_self),
      ih fun y hy => h y (List.mem_cons_of_mem _ hy)]
    rfl

/-- R9: what a full L-port forwarded queue does with an offered cell; either way one cell counts as lost. -/
theorem Loop.offerL_full {l : Loop} (h : l.lQueue.length = 32) :
    (∃ rest, displaces bs = true ∧ dropSample l.lQueue = some rest
        ∧ l.offerL bs = ({ l with lQueue := rest ++ [bs] }, true))
      ∨ ((displaces bs = false ∨ dropSample l.lQueue = none) ∧ l.offerL bs = (l, true)) := by
  unfold Loop.offerL
  rw [if_neg (by rw [h]; decide)]
  split
  · next hd =>
    split
    · next rest hr => exact .inl ⟨rest, hd, hr, rfl⟩
    · next hr => exact .inr ⟨.inr hr, rfl⟩
  · next hd => exact .inr ⟨.inl (Bool.eq_false_of_not_eq_true hd), rfl⟩

theorem Loop.offerF_room {l : Loop} (h : l.fQueue.length < 16) :
    l.offerF bs = ({ l with fQueue := l.fQueue ++ [bs] }, false) := if_pos h

theorem Loop.offerF_full {l : Loop} (h : 16 ≤ l.fQueue.length) : l.offerF bs = (l, true) := if_neg (Nat.not_lt.mpr h)

theorem State.offer_line (bs : List Byte) (s : State) : s.offer .line bs =
    { s with loop := (s.loop.offerL bs).1, jobs := s.jobs.countDisplaced (s.loop.offerL bs).2 } := rfl

theorem State.offer_field (bs : List Byte) (s : State) : s.offer .field bs =
    { s with loop := (s.loop.offerF bs).1, jobs := s.jobs.countDisplaced (s.loop.offerF bs).2 } := rfl

/-! ## Arrivals at a part that is ready -/

theorem exec_line {c : Instr} (hc : arrivalOf c = some (.line, bs)) (hs : s.Ready) (hg : goodCell bs = true) :
    exec c s = .next ((lineCounted s).classifyLine bs).creditWatch := by
  rw [exec_arrival hc, State.powerCommand_settled hs]
  unfold State.arrive
  rw [if_pos hg]
  rfl

theorem classifyLine_credit (hk : cellKind bs = kindCredit)
    (hd : cellDest bs = s.env.set.general.ownAddress ∨ cellDest bs = 0) : s.classifyLine bs = s.takeCredit bs := by
  unfold State.classifyLine
  simp only [hk, kindCredit, kindCommand, kindFence, kindClock, Nat.reduceEqDiff, false_and, if_false, true_and]
  rw [if_pos hd]

/-- The rows of R6 that take a cell. -/
def TakenLine (set : Settings) (bs : List Byte) : Prop :=
  (cellKind bs = kindCommand ∧ ((set.governedAt (cellDest bs)).isSome = true ∨ cellDest bs = 0))
    ∨ (cellKind bs = kindFence ∧ (cellDest bs = set.general.ownAddress ∨ cellDest bs = 0
      ∨ (set.governedAt (cellDest bs)).isSome = true))
    ∨ ((cellKind bs = kindClock ∨ cellKind bs = kindCredit)
      ∧ (cellDest bs = 0 ∨ cellDest bs = set.general.ownAddress))
    ∨ (cellKind bs = kindMgmtReq ∧ cellDest bs = set.general.ownAddress)

/-- R6: a cell that no row takes is discarded, ignored or forwarded, by its destination. -/
theorem classifyLine_untaken (h : ¬ TakenLine s.env.set bs) :
    s.classifyLine bs = if cellDest bs = s.env.set.general.ownAddress then s.tally (Jobs.countBad .line)
      else if cellDest bs = Config.lineMaster then s else s.offer .field bs := by
  simp only [TakenLine, not_or] at h
  obtain ⟨hcommand, hfence, hclock, hreq⟩ := h
  unfold State.classifyLine
  dsimp only
  rw [if_neg fun hc => hcommand ⟨hc.1, .inl hc.2⟩, if_neg fun hc => hcommand ⟨hc.1, .inr hc.2⟩, if_neg hfence,
    if_neg fun hc => hclock ⟨.inl hc.1, .inl hc.2⟩, if_neg fun hc => hclock ⟨.inl hc.1, .inr hc.2⟩,
    if_neg fun hc => hclock ⟨.inr hc.1, hc.2.symm⟩, if_neg hreq]

/-- R60: no actuator has address 0. -/
theorem Settings.actAt_zero (set : Settings) : set.actAt 0 = none := by
  unfold Settings.actAt
  induction set.actuators with
  | nil => rfl
  | cons a l ih =>
    have ha : (a.inUse && a.address == 0) = false := by
      unfold ActSettings.inUse
      cases h : a.address == 0 <;> simp_all
    rw [firstWhere, ha, ih]
    rfl

/-- R6: a broadcast COMMAND cell is refused. -/
theorem classifyLine_broadcast (hk : cellKind bs = kindCommand) (hd : cellDest bs = 0) :
    s.classifyLine bs = s.tally Jobs.countRefusal := by
  have hgov : s.env.set.governedAt (cellDest bs) = none := by
    unfold Settings.governedAt
    rw [hd, Settings.actAt_zero]
  unfold State.classifyLine
  dsimp only
  rw [hgov, if_neg fun hc => (nomatch hc.2 : False), if_pos ⟨hk, hd⟩]

end Sys2Proof.Machine

open Sys2Proof Sys2Proof.Machine

/-- Settles O16. -/
theorem fullQueueGivesWayToSamples : Obligations.FullQueueGivesWayToSamples := by
  refine ⟨fun bs s h => ?_, fun bs s h => ?_⟩
  · dsimp only
    rw [← displaces_iff]
    rw [State.offer_line]
    rcases Loop.offerL_full (bs := bs) h with ⟨rest, hd, hr, ho⟩ | ⟨hn, ho⟩
    · have hlen := dropSample_length hr
      rw [ho]
      refine ⟨rfl, by simp; omega, fun before after old _ hq hk hb => ?_, fun hno => ?_⟩
      · rw [hq, dropSample_append hk hb] at hr
        rw [← Option.some.inj hr]
      · rcases hno with hno | hno
        · exact absurd hd hno
        · rw [dropSample_none hno] at hr; cases hr
    · rw [ho]
      refine ⟨rfl, h, fun before after old hg hq hk hb => ?_, fun _ => rfl⟩
      rw [hq, dropSample_append hk hb] at hn
      rcases hn with hn | hn
      · rw [hn] at hg; cases hg
      · cases hn
  · rw [State.offer_field, Loop.offerF_full h]
    rfl

/-- Settles O13: at the boundary the raise of LOOP_NOISE causes nothing else, at a part that is settled. -/
theorem badCellIsCounted : Obligations.BadCellIsCounted := by
  intro bs s hs hbad
  have harrive : ∀ p, exec (.badCell p bs) s = .next (s.badArrival p).creditWatch := by
    intro p
    rw [exec_arrival rfl, State.powerCommand_settled hs]
    unfold State.arrive
    rw [hbad]
    rfl
  refine ⟨harrive .line, fun hrun => ?_, fun hrun hshape => ?_⟩
  · rw [harrive]
    unfold State.badArrival
    dsimp only
    rw [if_neg (by show ¬ s.loop.badRun + 1 = 16; omega)]
    rfl
  · let u : State := { s with
      loop := { s.loop with badRun := 16 }, jobs := s.jobs.countBad .field }
    have hrises : min Config.badRunMax ((s.tally (Jobs.countBad .field)).loop.badRun + 1) = 16 := by
      show min 16 (s.loop.badRun + 1) = 16
      omega
    have hraise : s.badArrival .field = { u with jobs := u.jobs.raise u.env .loopNoise } := by
      have hu : u.Settled := hs.2
      unfold State.badArrival
      dsimp only
      rw [if_pos (by show s.loop.badRun + 1 = 16; omega), hrises]
      exact State.work_raise hu (by decide)
    refine ⟨_, harrive .field, ?_⟩
    rw [hraise]
    exact ⟨rfl, rfl, Jobs.raise_active _ _ hshape.conds, rfl, rfl, fun k hk => Tele.flags_raise_ne _ hk _⟩

/-- Settles O15. -/
theorem lineCellIsForwarded : Obligations.LineCellIsForwarded := by
  refine ⟨fun bs s hs hg h1 h2 h3 h4 => ?_, fun c bs s hc hs hg hk hd => ?_⟩
  · have hun : ¬ TakenLine (lineCounted s).env.set bs := fun h => by
      rcases h with h | h | h | h
      · exact h1 h
      · exact h2 h
      · exact h3 h
      · exact h4 h
    rw [exec_line rfl hs hg, classifyLine_untaken (s := lineCounted s) hun]
    refine ⟨fun hown hmaster hroom => ?_, fun hown hmaster => ?_, fun hown => ?_⟩
    · rw [if_neg hown, if_neg (show cellDest bs ≠ Config.lineMaster from hmaster)]
      rw [State.offer_field, Loop.offerF_room hroom]
      rfl
    · rw [if_neg hown, if_pos (show cellDest bs = Config.lineMaster from hmaster)]
    · rw [if_pos hown]
      rfl
  · rw [exec_line hc hs hg, classifyLine_broadcast hk hd]
    rfl

/-- Settles O17. -/
theorem creditCellSetsCount : Obligations.CreditCellSetsCount := by
  intro bs s hs hg hk hd
  have hexec : exec (.credit bs) s = .next ((lineCounted s).takeCredit bs).creditWatch := by
    rw [exec_line rfl hs hg, classifyLine_credit (s := lineCounted s) hk hd]
  dsimp only
  rw [hexec]
  unfold State.takeCredit
  refine ⟨fun hno => ?_, fun x rest hx => ?_⟩
  · rw [hno]
    rfl
  · rw [hx, List.head?_cons, Option.bind_some]
    unfold creditAfter
    refine ⟨fun hlo hhi hmode => ?_, fun hlo hhi hmode => ?_, fun hbad => ?_⟩
    · rw [if_neg (by omega), if_pos hmode]
      rfl
    · rw [if_neg (by omega), if_neg (by omega), if_pos hmode]
    · by_cases hr : x.field1 = 0 ∨ 15 < x.field1
      · rw [if_pos hr]
        rfl
      · rw [if_neg hr, if_neg (by omega), if_neg (by omega)]
        rfl

end

section
/-!
PROOFS. The two arbiters and the expiry of CREDIT_WAIT (spec/01 R13 to R19).
-/

namespace Sys2Proof.Machine

variable {s : State} {bs : List Byte}

/-! ## Candidates (R15) -/

theorem State.routineWaits_iff : s.routineWaits = true ↔ ¬ s.loop.lQueue = [] ∨ s.jobs.tele.opened.ready = true := by
  simp [State.routineWaits]

theorem State.candidateWaits_iff : s.candidateWaits = true ↔ s.jobs.tele.urgent.ready = true ∨ s.routineWaits = true := by
  simp [State.candidateWaits]

/-! ## Sends on the L-port -/

theorem Tele.same_urgentSent (v : TeleEnv) (t : Tele) : Tele.Same t (t.urgentSent v) :=
  Tele.Same.trans (t' := { t with urgent := .empty }) ⟨fun _ => rfl, rfl, rfl, rfl⟩ (Tele.same_pack v _)

theorem Tele.same_openedSent (v : TeleEnv) (t : Tele) : Tele.Same t (t.openedSent v) :=
  Tele.Same.trans (t' := { t with opened := t.ahead.getD .empty, ahead := none }) ⟨fun _ => rfl, rfl, rfl, rfl⟩
    (Tele.same_pack v _)

/-- R13, R14: a send on a settled part spends a credit, takes the transmitter and clears LINE_STALLED, and causes nothing
else. -/
theorem State.lineSend_eq (hs : s.Settled) {f : Tele → TeleEnv → Tele} (hf : ∀ v t, Tele.Same t (f t v)) :
    s.lineSend bs f = { s with
      loop := { s.loop with lTx := some bs, credits := s.loop.credits - 1 }
      jobs := (s.jobs.tele' (fun v t => f t v) s.env).clear s.env .lineStalled } :=
  State.work_tele (s := { s with loop := { s.loop with lTx := some bs, credits := s.loop.credits - 1 } }) hs _ rfl
    (congrArg Prod.fst ((Tele.flags_clear_ne _ (by decide) _).trans ((hf _ _).flags .actuatorDiscord)))

/-- R16: the urgent cell's send. -/
theorem State.sendUrgent_eq (hs : s.Settled) : s.sendUrgent = { s with
    loop := { s.loop with
      streak := if s.routineWaits then s.loop.streak + 1 else 0,
      lTx := some (reportCell s.env.set.general.ownAddress true s.jobs.tele.urgent),
      credits := s.loop.credits - 1 }
    jobs := (s.jobs.tele' (fun v t => t.urgentSent v) s.env).clear s.env .lineStalled } :=
  State.lineSend_eq (s := { s with loop := { s.loop with streak := if s.routineWaits then s.loop.streak + 1 else 0 } }) hs
    Tele.same_urgentSent

/-- R17: the open cell's send. -/
theorem State.sendReport_eq (hs : s.Settled) : s.sendReport = { s with
    loop := { s.loop with
      streak := 0, turn := .forward,
      lTx := some (reportCell s.env.set.general.ownAddress false s.jobs.tele.opened),
      credits := s.loop.credits - 1 }
    jobs := (s.jobs.tele' (fun v t => t.openedSent v) s.env).clear s.env .lineStalled } :=
  State.lineSend_eq (s := { s with loop := { s.loop with streak := 0, turn := .forward } }) hs Tele.same_openedSent

/-- R17, R8: a forwarded cell's send. -/
theorem State.sendForwarded_eq (hs : s.Settled) (rest : List (List Byte)) : s.sendForwarded bs rest = { s with
    loop := { s.loop with
      streak := 0, turn := .report, lQueue := rest, lTx := some bs, credits := s.loop.credits - 1 }
    jobs := ((s.jobs.count (fun c => { c with forwarded5Up := c.forwarded5Up + 1#32 })).tele' (fun _ t => t)
      s.env).clear s.env .lineStalled } :=
  State.lineSend_eq (s := State.tally (Jobs.count fun c => { c with forwarded5Up := c.forwarded5Up + 1#32 })
    { s with loop := { s.loop with streak := 0, turn := .report, lQueue := rest } }) hs (fun _ => .refl)

/-- R17: the open cell's turn, or no forwarded cell waits. -/
theorem State.sendRoutine_report (h : s.loop.lQueue = [] ∨ (s.jobs.tele.opened.ready = true ∧ s.loop.turn = .report)) :
    s.sendRoutine = s.sendReport := by
  unfold State.sendRoutine
  split
  · next hq =>
    rw [hq] at h
    obtain ⟨ho, ht⟩ := h.resolve_left (List.cons_ne_nil _ _)
    rw [if_pos (by rw [ho, ht]; rfl)]
  · rfl

/-- R17: a forwarded cell's turn. -/
theorem State.sendRoutine_forward {rest : List (List Byte)} (hq : s.loop.lQueue = bs :: rest)
    (h : ¬ (s.jobs.tele.opened.ready = true ∧ s.loop.turn = .report)) : s.sendRoutine = s.sendForwarded bs rest := by
  unfold State.sendRoutine
  rw [hq]
  exact if_neg (by simpa using h)

/-- What begins on the L-port when a send is due. -/
theorem State.lineArbiter_send (htx : s.loop.lTx = none) (hc : 0 < s.loop.credits)
    (hw : s.jobs.tele.urgent.ready = true ∨ s.routineWaits = true) :
    s.lineArbiter = if s.jobs.tele.urgent.ready = true ∧ ¬ (s.loop.streak = 4 ∧ s.routineWaits = true)
      then s.sendUrgent else s.sendRoutine := by
  have hcand := State.candidateWaits_iff.mpr hw
  unfold State.lineArbiter
  rw [if_pos (by rw [htx, hcand, decide_eq_true hc]; rfl)]
  exact if_congr (by simp [not_and_or, -not_and, Config.streakMax]) rfl rfl

/-- Nothing begins on the L-port. -/
theorem State.lineArbiter_idle (h : s.loop.lTx ≠ none ∨ s.loop.credits = 0 ∨ s.candidateWaits = false) :
    s.lineArbiter = s := by
  unfold State.lineArbiter
  refine if_neg fun hn => ?_
  simp only [Bool.and_eq_true, Option.isNone_iff_eq_none, decide_eq_true_eq] at hn
  obtain ⟨⟨htx, hc⟩, hw⟩ := hn
  rcases h with h | h | h
  · exact h htx
  · omega
  · rw [h] at hw; cases hw

/-! ## A raised URGENT kind is due or packed (R152, R167) -/

/-- The kind stands on the urgent due list, or in the urgent cell. -/
def Tele.Carries (k : CondKind) (t : Tele) : Prop := t.urgentDue.contains k = true ∨ t.urgent.hasKind k = true

/-- A packing into a routine cell leaves the urgent list and cell. -/
theorem packOne_urgent {v : TeleEnv} {c : ReportCell} {t : Tele} {r : ReportCell × Tele} (h : packOne v c t = some r) :
    r.2.urgentDue = t.urgentDue ∧ r.2.urgent = t.urgent := by
  have due : ∀ {r}, (match oldestDue c t.due with
      | some i => some (c.packRoutine v (.policy i (packed (v.figure i))), t.policyPacked v i)
      | none => none) = some r → r.2.urgentDue = t.urgentDue ∧ r.2.urgent = t.urgent := by
    intro r h
    split at h
    · cases h; exact ⟨rfl, rfl⟩
    · cases h
  unfold packOne at h
  dsimp only at h
  split at h
  · next n _ _ =>
    split at h
    · cases h; cases n <;> exact ⟨rfl, rfl⟩
    · exact due h
  · exact due h

theorem Tele.Carries.packRoutine {v : TeleEnv} {k : CondKind} {t t' : Tele} (h : t.packRoutine v = some t')
    (hc : t.Carries k) : t'.Carries k := by
  unfold Tele.packRoutine at h
  split at h <;>
  · obtain ⟨r, hr, rfl⟩ := Option.map_eq_some_iff.mp h
    obtain ⟨hd, hu⟩ := packOne_urgent hr
    unfold Tele.Carries at hc ⊢
    rw [← hd, ← hu] at hc
    exact hc

/-- The head of the urgent list goes into the urgent cell. -/
theorem Tele.Carries.packUrgent {k : CondKind} {t t' : Tele} (h : t.packUrgent = some t') (hc : t.Carries k) :
    t'.Carries k := by
  unfold Tele.packUrgent at h
  split at h
  · cases h
  · next k' rest hd =>
    split at h
    · cases h
      unfold Tele.Carries ReportCell.hasKind at hc ⊢
      simp only [hd, List.contains_cons, Bool.or_eq_true, beq_iff_eq] at hc
      simp only [Tele.kindPacked, Tele.updateCond, Tele.condItem, List.any_append, List.any_cons, List.any_nil, Bool.or_eq_true,
        beq_iff_eq, Bool.or_false]
      rcases hc with (rfl | hc) | hc
      · exact .inr (.inr rfl)
      · exact .inl hc
      · exact .inr (.inl hc)
    · cases h

theorem Tele.Carries.pack {k : CondKind} {t : Tele} (v : TeleEnv) (hc : t.Carries k) : (t.pack v).Carries k :=
  packLoop_keeps (fun a b => a.Carries k → b.Carries k) (fun _ => id) (fun h h' => h' ∘ h)
    (fun h hc => Tele.Carries.packRoutine h hc) 6 _
    (packLoop_keeps (fun a b => a.Carries k → b.Carries k) (fun _ => id) (fun h h' => h' ∘ h)
      (fun h hc => Tele.Carries.packUrgent h hc) 3 t hc)

theorem Tele.carries_joinUrgent (k : CondKind) (t : Tele) : (t.joinUrgent k).Carries k := by
  unfold Tele.joinUrgent
  split
  · next h => exact .inl h
  · exact .inl (by simp)

/-- R152: a raise of an inactive URGENT kind reports it. -/
theorem Tele.carries_raise (v : TeleEnv) {k : CondKind} {t : Tele} (hk : k.urgent = true) (ha : (t.cond k).active = false) :
    (t.raise v k).Carries k := by
  unfold Tele.raise Tele.report
  rw [if_neg (by rw [ha]; decide), if_pos hk]
  exact (Tele.carries_joinUrgent k _).pack v

/-! ## CREDIT_WAIT (R14) -/

theorem State.creditWatch_stopped (h : s.jobs.active .lineStalled = true) : s.creditWatch.loop.creditWait = none := by
  cases hw : s.creditWatch.loop.creditWait with
  | none => rfl
  | some x =>
    have hs := (s.creditWatch_isSome.mp (by rw [hw]; rfl)).2.2
    rw [h] at hs
    cases hs

/-! ## What only a command writes, after a change -/

/-- A change leaves what it wrote of the hull: the rest of the command does not touch it. -/
theorem State.hull_change (f : Part → Part) (s : State) : (s.change f).jobs.hull = (f s.part).2.hull :=
  (Jobs.moves_complete ..).hull_eq

theorem State.hull_work (f : Env → Jobs → Jobs) (s : State) : (s.work f).jobs.hull = (f s.env s.jobs).hull :=
  State.hull_change (fun p => (p.1, f p.1 p.2)) s

/-- An issue writes the In-Flight Table, the settled command and the counter. -/
theorem Jobs.hull_issue (e : Env) (i : Nat) (a : Action) (o : Origin) (j : Jobs) :
    (j.issue e i a o).hull = ((({ j with
      flight := j.flight ++ [Flight.mk i a o false (e.now + e.set.general.ackTimeout)] } : Jobs).updateAct i
        (fun r => { r with settled := a.commanded.getD r.settled })).count
          (fun c => { c with issued9 := c.issued9 + 1#32 })).hull :=
  (Jobs.Moves.refl (dry := false)).itemsLeft.hull_eq

theorem Jobs.act_updateAct_self {i : Nat} (f : ActRuntime → ActRuntime) {j : Jobs} (h : i < j.acts.length) :
    (j.updateAct i f).act i = f (j.act i) := updateAt_getD_self f _ _ _ h

theorem Jobs.act_updateAct_ne {i k : Nat} (f : ActRuntime → ActRuntime) {j : Jobs} (h : k ≠ i) :
    (j.updateAct i f).act k = j.act k := updateAt_getD_ne f _ _ _ _ h

end Sys2Proof.Machine

open Sys2Proof Sys2Proof.Machine

/-- Settles O21. -/
theorem creditWaitExpiryRaisesLineStalled : Obligations.CreditWaitExpiryRaisesLineStalled := by
  intro s hs hshape
  have hexec : exec .creditWaitExpiry s = .next s.creditWaitExpiry.creditWatch := exec_ready hs (by decide) (by decide)
  refine ⟨fun hw => ?_, fun hw => ?_⟩
  · rw [hexec]
    unfold State.creditWaitExpiry
    rw [hw]
    rfl
  · have hraise : s.creditWaitExpiry =
        { s with loop := { s.loop with creditWait := none }, jobs := s.jobs.raise s.env .lineStalled } := by
      unfold State.creditWaitExpiry
      rw [if_pos (Option.isSome_iff_ne_none.mpr hw)]
      exact State.work_raise (s := { s with loop := { s.loop with creditWait := none } }) hs.2 (by decide)
    have hactive : (s.jobs.raise s.env .lineStalled).active .lineStalled = true := Jobs.raise_active _ _ hshape.conds
    refine ⟨_, hexec, ?_⟩
    rw [hraise]
    refine ⟨hactive, ?_, rfl, fun ha => Tele.carries_raise _ rfl ha, fun k hk => Tele.flags_raise_ne _ hk _⟩
    rw [State.creditWatch_loop, State.creditWatch_stopped hactive]

/-- Settles O18. -/
theorem lineSendFollowsArbiter : Obligations.LineSendFollowsArbiter := by
  intro s hs _
  have hexec : exec .lPortSendBegin s = .next s.lineArbiter.creditWatch := exec_ready hs (by decide) (by decide)
  dsimp only
  rw [← State.routineWaits_iff]
  refine ⟨fun hidle => ?_, fun htx hc hw => ?_⟩
  · rw [hexec, State.lineArbiter_idle]
    refine hidle.imp_right (Or.imp_right fun ⟨hu, hr⟩ => Bool.eq_false_of_not_eq_true fun hn => ?_)
    rcases State.candidateWaits_iff.mp hn with h | h
    · rw [hu] at h; cases h
    · exact hr h
  · refine ⟨_, hexec, ?_⟩
    rw [State.lineArbiter_send htx hc hw]
    have hstalled : ∀ j : Jobs, (j.clear s.env .lineStalled).active .lineStalled = false := fun j =>
      j.clear_active s.env (by decide)
    by_cases hu : s.jobs.tele.urgent.ready = true ∧ ¬ (s.loop.streak = 4 ∧ s.routineWaits = true)
    · rw [if_pos hu, State.sendUrgent_eq hs.2]
      exact ⟨rfl, hstalled _, rfl, rfl, rfl,
        fun _ => ⟨rfl, rfl, rfl, fun hr => if_pos hr, fun hr => if_neg hr⟩, fun hn => absurd hu hn⟩
    · rw [if_neg hu]
      by_cases hrep : s.loop.lQueue = [] ∨ (s.jobs.tele.opened.ready = true ∧ s.loop.turn = .report)
      · rw [State.sendRoutine_report hrep, State.sendReport_eq hs.2]
        refine ⟨rfl, hstalled _, rfl, rfl, rfl, fun h => absurd h hu,
          fun _ => ⟨rfl, fun bs rest hq hn => ?_, fun _ => ⟨rfl, rfl, rfl⟩⟩⟩
        rw [hq] at hrep
        exact absurd (hrep.resolve_left (List.cons_ne_nil _ _)) hn
      · obtain ⟨hne, hturn⟩ := not_or.mp hrep
        obtain ⟨bs, rest, hq⟩ := List.exists_cons_of_ne_nil hne
        rw [State.sendRoutine_forward hq hturn, State.sendForwarded_eq hs.2]
        refine ⟨rfl, hstalled _, rfl, rfl, rfl, fun h => absurd h hu,
          fun _ => ⟨rfl, fun bs' rest' hq' _ => ?_, fun h => absurd h hrep⟩⟩
        obtain ⟨rfl, rfl⟩ := List.cons.inj (hq.symm.trans hq')
        exact ⟨rfl, rfl, rfl, rfl⟩

/-- Settles O19. -/
theorem fieldSendIssuesCommandFirst : Obligations.FieldSendIssuesCommandFirst := by
  have hexec : ∀ s : State, s.Ready → exec .fPortSendBegin s = .next s.fieldArbiter.creditWatch := fun s hs =>
    exec_ready hs (by decide) (by decide)
  refine ⟨fun s hs htx => ?_, fun s hs hr hq => ?_, fun s bs rest hs htx hr hq => ?_, fun s i a o hs hshape htx hi hr => ?_⟩
  · rw [hexec s hs]
    unfold State.fieldArbiter
    rw [if_pos (Option.isSome_iff_ne_none.mpr htx)]
  · rw [hexec s hs]
    unfold State.fieldArbiter
    rw [hr, hq]
    dsimp only
    rw [ite_self]
  · rw [hexec s hs]
    unfold State.fieldArbiter
    rw [htx, hr, hq]
    rfl
  · have hsend : s.fieldArbiter = ({ s with loop := { s.loop with fTx := some (commandCell s.env.set i a) } } : State).work
        (fun e j => j.issue e i a o) := by
      unfold State.fieldArbiter
      rw [htx, hr]
      rfl
    have hhull := (State.hull_work (fun e j => j.issue e i a o)
      { s with loop := { s.loop with fTx := some (commandCell s.env.set i a) } }).trans (Jobs.hull_issue ..)
    have hlen : i < s.jobs.acts.length := by rw [hshape.acts]; exact hi
    refine ⟨_, hexec s hs, ?_⟩
    rw [hsend]
    refine ⟨rfl, rfl, rfl, congrArg Hull.flight hhull, ?_, congrArg (fun h => h.counters.issued9) hhull, fun k hk => ?_⟩
    · exact (congrArg (fun v => v.2.2.2.2.2) (Jobs.hull_act hhull i)).trans
        (congrArg ActRuntime.settled (Jobs.act_updateAct_self _ hlen))
    · exact (Jobs.hull_act hhull k).trans (congrArg ActRuntime.view (Jobs.act_updateAct_ne _ hk))
end

section
/-!
PROOFS. Cells at the F-port: what an arrival leaves alone, the pass-through path, and what SAMPLE cells write
(spec/01 R2 to R5, spec/02 R26 to R33).
-/

namespace Sys2Proof.Machine

variable {s : State} {bs : List Byte}

/-! ## An arrival that has been counted and heard -/

theorem Jobs.hull_leftStale (e : Env) (was : HeadState) (j : Jobs) : (j.leftStale e was).hull = j.hull := by
  unfold Jobs.leftStale Jobs.headStaleTest Jobs.keep
  split
  · split <;> rfl
  · rfl

theorem hull_heard (bs : List Byte) (p : Part) : (heard bs p).2.hull = p.2.hull := by
  unfold heard
  dsimp only
  split
  · dsimp only
    split
    · exact Jobs.hull_leftStale ..
    · rfl
  · rfl

@[simp] theorem Env.updateHead_clock (a : Nat) (f : HeadRuntime → HeadRuntime) (e : Env) :
    (e.updateHead a f).clock = e.clock := by unfold Env.updateHead; split <;> rfl

@[simp] theorem Env.updateHead_now (a : Nat) (f : HeadRuntime → HeadRuntime) (e : Env) :
    (e.updateHead a f).now = e.now := by unfold Env.updateHead; split <;> rfl

@[simp] theorem Env.updateHead_length (a : Nat) (f : HeadRuntime → HeadRuntime) (e : Env) :
    (e.updateHead a f).heads.length = e.heads.length := by
  unfold Env.updateHead
  split
  · rfl
  · exact updateAt_length _ _ _

/-- The time, the settings and the number of head records stay. -/
structure Env.Frame (e e' : Env) : Prop where
  set : e'.set = e.set
  clock : e'.clock = e.clock
  now : e'.now = e.now
  heads : e'.heads.length = e.heads.length

theorem Env.Frame.refl (e : Env) : Env.Frame e e := ⟨rfl, rfl, rfl, rfl⟩

theorem Env.Frame.trans {e e' e'' : Env} (h : Env.Frame e e') (h' : Env.Frame e' e'') : Env.Frame e e'' :=
  ⟨h'.set.trans h.set, h'.clock.trans h.clock, h'.now.trans h.now, h'.heads.trans h.heads⟩

theorem Env.frame_updateHead (a : Nat) (f : HeadRuntime → HeadRuntime) (e : Env) : Env.Frame e (e.updateHead a f) :=
  ⟨Env.updateHead_set .., Env.updateHead_clock .., Env.updateHead_now .., Env.updateHead_length ..⟩

theorem heard_frame (bs : List Byte) (p : Part) : Env.Frame p.1 (heard bs p).1 := by
  unfold heard
  dsimp only
  split
  · exact Env.frame_updateHead ..
  · exact .refl _

/-! ## A good F-port cell, counted and heard (R2, R3, R32) -/

theorem State.settled_hull (s : State) : s.settled.jobs.hull = s.jobs.hull := (Jobs.moves_settle ..).hull_eq

theorem Jobs.hull_received1F {j j' : Jobs} (h : j'.hull = j.hull) : j'.counters.received1F = j.counters.received1F :=
  congrArg (fun h : Hull => h.counters.received1F) h

theorem Jobs.hull_bad3F {j j' : Jobs} (h : j'.hull = j.hull) : j'.counters.bad3F = j.counters.bad3F :=
  congrArg (fun h : Hull => h.counters.bad3F) h

theorem Jobs.hull_acts_length {j j' : Jobs} (h : j'.hull = j.hull) : j'.acts.length = j.acts.length := by
  simpa [Jobs.hull] using congrArg (fun h => h.acts.length) h

/-- Hearing a cell moves, of what a command alone writes, the counter of received cells. -/
theorem received_hull (bs : List Byte) (s : State) : (s.settled.received .field bs).jobs.hull =
    (s.settled.jobs.count (fun c => { c with received1F := c.received1F + 1#32 })).hull :=
  ((State.hull_change _ _).trans (hull_heard ..)).trans (State.hull_work ..)

/-- What the part is, from `s`, when a good cell of the F-port is to be classified. -/
structure State.Heard (bs : List Byte) (s r : State) : Prop where
  loop : r.loop = { s.loop with badRun := 0 }
  env : ∃ j, r.env = (heard bs (s.env, j)).1
  received1F : r.jobs.counters.received1F = s.jobs.counters.received1F + 1#32
  bad3F : r.jobs.counters.bad3F = s.jobs.counters.bad3F
  flight : r.jobs.flight = s.jobs.flight
  view : ∀ i, (r.jobs.act i).view = (s.jobs.act i).view
  acts : r.jobs.acts.length = s.jobs.acts.length

theorem State.heard_received (bs : List Byte) (s : State) : s.Heard bs (s.settled.received .field bs) := by
  have hh := received_hull bs s
  have hs := s.settled_hull
  refine ⟨rfl, ⟨_, rfl⟩, ?_, ?_, ?_, fun i => ?_, ?_⟩
  · rw [Jobs.hull_received1F hh, ← Jobs.hull_received1F hs]
    rfl
  · rw [Jobs.hull_bad3F hh, ← Jobs.hull_bad3F hs]
    rfl
  · exact (congrArg Hull.flight hh).trans (congrArg Hull.flight hs)
  · exact (Jobs.hull_act hh i).trans (Jobs.hull_act hs i)
  · rw [Jobs.hull_acts_length hh, ← Jobs.hull_acts_length hs]
    rfl

/-- A good cell that comes in at the F-port is counted, heard and classified. -/
theorem exec_field {c : Instr} (hc : arrivalOf c = some (.field, bs)) (hp : s.powered = true) (hg : goodCell bs = true) :
    ∃ r, s.Heard bs r ∧ exec c s = .next (r.classifyField bs).creditWatch := by
  refine ⟨_, s.heard_received bs, ?_⟩
  rw [exec_arrival hc]
  unfold State.powerCommand State.arrive
  rw [if_pos hp, if_pos hg]
  rfl

theorem State.Heard.frame {r : State} (h : s.Heard bs r) : Env.Frame s.env r.env := by
  obtain ⟨j, hj⟩ := h.env
  exact hj ▸ heard_frame bs (s.env, j)

/-! ## The pass-through path (R4, R5, R8) -/

theorem Loop.offerL_room {l : Loop} (h : l.lQueue.length < 32) :
    l.offerL bs = ({ l with lQueue := l.lQueue ++ [bs] }, false) := if_pos h

/-- R5: a cell that no block takes. -/
theorem classifyField_untaken (h1 : cellKind bs ≠ kindSample) (h2 : cellKind bs ≠ kindStatus)
    (hd : cellDest bs ≠ s.env.set.general.ownAddress) :
    s.classifyField bs = if 1 ≤ cellDest bs ∧ cellDest bs ≤ 47 then s else s.offer .line bs := by
  unfold State.classifyField
  dsimp only
  rw [if_neg h1, if_neg h2, if_neg hd]

theorem classifyField_own (h1 : cellKind bs ≠ kindSample) (h2 : cellKind bs ≠ kindStatus)
    (hd : cellDest bs = s.env.set.general.ownAddress) (h3 : cellKind bs ≠ kindAck) (h4 : cellKind bs ≠ kindMgmtReq) :
    s.classifyField bs = s.tally (Jobs.countBad .field) := by
  unfold State.classifyField
  dsimp only
  rw [if_neg h1, if_neg h2, if_pos hd, if_neg h3, if_neg h4]

/-- The queue after an offer depends on the queue alone. -/
theorem Loop.offerL_badRun (l : Loop) (n : Nat) :
    (({ l with badRun := n } : Loop).offerL bs).1.lQueue = (l.offerL bs).1.lQueue := by
  unfold Loop.offerL
  dsimp only
  split
  · rfl
  · split
    · split <;> rfl
    · rfl

theorem Loop.offerL_frame (l : Loop) : (l.offerL bs).1 = { l with lQueue := (l.offerL bs).1.lQueue } := by
  unfold Loop.offerL
  split
  · rfl
  · split
    · split <;> rfl
    · rfl

/-- What offering a copy upstream leaves alone. -/
theorem State.forwardUp_frame (bs : List Byte) (s : State) :
    (s.forwardUp bs).env = s.env ∧ (s.forwardUp bs).loop.badRun = s.loop.badRun
      ∧ (s.forwardUp bs).jobs.acts = s.jobs.acts ∧ (s.forwardUp bs).jobs.flight = s.jobs.flight
      ∧ (s.forwardUp bs).jobs.counters.bad3F = s.jobs.counters.bad3F := by
  unfold State.forwardUp
  split
  · rw [State.offer_line, Loop.offerL_frame]
    cases (s.loop.offerL bs).2 <;> exact ⟨rfl, rfl, rfl, rfl, rfl⟩
  · exact ⟨rfl, rfl, rfl, rfl, rfl⟩

/-- R5: the forward test, of a part that has the settings and, but for the bad run, the queues of `s`. -/
theorem State.forwardUp_lQueue {u : State} (hset : u.env.set = s.env.set) (hloop : u.loop = { s.loop with badRun := 0 }) :
    (u.forwardUp bs).loop.lQueue =
      if s.env.set.known (cellSource bs) = true ∧ (s.env.set.head (cellSource bs)).absorb = true then s.loop.lQueue
      else s.loop.offered .line bs := by
  unfold State.forwardUp forwardTest
  rw [hset]
  by_cases h : s.env.set.known (cellSource bs) = true ∧ (s.env.set.head (cellSource bs)).absorb = true
  · rw [if_pos h, if_neg (by simp [h.1, h.2]), hloop]
  · rw [if_neg h, if_pos (by simpa [not_and_or, -not_and] using h), State.offer_line, hloop]
    exact Loop.offerL_badRun ..

/-! ## SAMPLE cells (spec/02) -/

/-- A head record that an update reaches. -/
theorem Env.head_updateHead_self {a : Nat} (f : HeadRuntime → HeadRuntime) {e : Env} (h0 : a ≠ 0)
    (h : a - 1 < e.heads.length) : (e.updateHead a f).head a = f (e.head a) := by
  unfold Env.head Env.updateHead
  rw [if_neg h0, if_neg h0, if_neg h0]
  exact updateAt_getD_self f _ _ _ h

theorem Env.head_updateHead_ne {a b : Nat} (f : HeadRuntime → HeadRuntime) (e : Env) (h : b ≠ a) :
    (e.updateHead a f).head b = e.head b := by
  unfold Env.head Env.updateHead
  by_cases hb : b = 0
  · rw [if_pos hb, if_pos hb]
  · rw [if_neg hb, if_neg hb]
    split
    · rfl
    · exact updateAt_getD_ne f _ _ _ _ (by omega)

/-- R22: a known head has an address and an entry. -/
theorem Settings.known_bounds {set : Settings} {a : Nat} (h : set.known a = true) : a ≠ 0 ∧ a - 1 < set.heads.length := by
  unfold Settings.known Settings.head at h
  split at h
  · cases h
  · next h0 =>
    refine ⟨h0, ?_⟩
    by_contra hl
    rw [List.getD_eq_default _ _ (Nat.le_of_not_lt hl)] at h
    cases h

/-- An item moves at most the record of its head. -/
theorem takeItem_env (a : Nat) (x : SampleItem) (p : Part) :
    (takeItem a x p).1 = p.1 ∨ ∃ f, (takeItem a x p).1 = p.1.updateHead a f := by
  unfold takeItem
  split
  · exact .inl rfl
  · exact .inr ⟨_, rfl⟩
  · exact .inr ⟨_, rfl⟩

theorem takeItem_frame (a : Nat) (x : SampleItem) (p : Part) : Env.Frame p.1 (takeItem a x p).1 := by
  rcases takeItem_env a x p with h | ⟨f, h⟩ <;> rw [h]
  · exact .refl _
  · exact Env.frame_updateHead ..

theorem takeItem_head_ne {a b : Nat} (x : SampleItem) (p : Part) (h : b ≠ a) :
    (takeItem a x p).1.head b = p.1.head b := by
  rcases takeItem_env a x p with hf | ⟨f, hf⟩ <;> rw [hf]
  exact Env.head_updateHead_ne f _ h

/-- R26 to R29: what an item leaves of its head's record. -/
theorem takeItem_head {a : Nat} (x : SampleItem) {p : Part} (h0 : a ≠ 0) (h : a - 1 < p.1.heads.length) :
    (takeItem a x p).1.head a = headAfter p.1 a (p.1.head a) x := by
  unfold takeItem headAfter
  cases reading (p.1.set.head a).kind x with
  | none => rfl
  | some y =>
    cases y with
    | value v clamped => exact Env.head_updateHead_self _ h0 h
    | fault code => exact Env.head_updateHead_self _ h0 h

theorem headAfter_congr {e e' : Env} (h : Env.Frame e e') (a : Nat) : headAfter e' a = headAfter e a := by
  funext r x
  unfold headAfter
  rw [h.set, h.clock, h.now]

/-- R26: the items of a SAMPLE cell, taken in slot order, from a known head. -/
theorem takeItems_heads {a : Nat} (h0 : a ≠ 0) (items : List SampleItem) (s : State) (h : a - 1 < s.env.heads.length) :
    let t := items.foldl (fun s x => s.change (takeItem a x)) s
    Env.Frame s.env t.env ∧ t.loop = s.loop ∧ t.env.head a = items.foldl (headAfter s.env a) (s.env.head a)
      ∧ ∀ b, b ≠ a → t.env.head b = s.env.head b := by
  induction items generalizing s with
  | nil => exact ⟨.refl _, rfl, rfl, fun _ _ => rfl⟩
  | cons x items ih =>
    have hf : Env.Frame s.env (s.change (takeItem a x)).env := takeItem_frame a x s.part
    obtain ⟨hframe, hloop, hhead, hothers⟩ := ih (s.change (takeItem a x)) (by rw [hf.heads]; exact h)
    refine ⟨hf.trans hframe, hloop, ?_, fun b hb => (hothers b hb).trans (takeItem_head_ne x s.part hb)⟩
    have hx : (s.change (takeItem a x)).env.head a = headAfter s.env a (s.env.head a) x := takeItem_head x h0 h
    have hc : headAfter (s.change (takeItem a x)).env a = headAfter s.env a := headAfter_congr hf a
    rw [hx, hc] at hhead
    exact hhead

/-- R32: what hearing a cell leaves of a known head's record. -/
theorem heard_head {p : Part} (hk : p.1.set.known (cellSource bs) = true) (hl : p.1.heads.length = p.1.set.heads.length) :
    (heard bs p).1.head (cellSource bs) = heardHead bs p.1 := by
  obtain ⟨h0, hb⟩ := Settings.known_bounds hk
  unfold heard heardHead
  dsimp only
  rw [hk, Bool.true_and]
  cases hm : (p.1.set.head (cellSource bs)).kind.measuring with
  | true => rfl
  | false =>
    rw [if_pos (show (!false) = true from rfl), if_neg Bool.false_ne_true]
    refine (Env.head_updateHead_self _ h0 (hl ▸ hb)).trans ?_
    cases faultItem bs <;> rfl

theorem heard_head_ne {p : Part} {b : Nat} (h : b ≠ cellSource bs) : (heard bs p).1.head b = p.1.head b := by
  unfold heard
  dsimp only
  split
  · exact Env.head_updateHead_ne _ _ h
  · rfl

theorem heard_unknown {p : Part} (hk : p.1.set.known (cellSource bs) = false) : (heard bs p).1 = p.1 := by
  unfold heard
  dsimp only
  rw [hk, Bool.false_and, if_neg Bool.false_ne_true]

/-- R26, R33: what taking a SAMPLE cell does to the head records. -/
theorem takeSample_heads (hl : s.env.heads.length = s.env.set.heads.length) :
    Env.Frame s.env (s.takeSample bs).env ∧ (s.takeSample bs).loop = s.loop
      ∧ (s.env.set.known (cellSource bs) = true →
          (s.takeSample bs).env.head (cellSource bs)
              = (sampleItems bs).foldl (headAfter s.env (cellSource bs)) (s.env.head (cellSource bs))
            ∧ ∀ b, b ≠ cellSource bs → (s.takeSample bs).env.head b = s.env.head b)
      ∧ (s.env.set.known (cellSource bs) = false → s.takeSample bs = s.tally (Jobs.countBad .field)) := by
  unfold State.takeSample
  cases hk : s.env.set.known (cellSource bs) with
  | true =>
    obtain ⟨h0, hb⟩ := Settings.known_bounds hk
    obtain ⟨hframe, hloop, hhead, hothers⟩ := takeItems_heads h0 (sampleItems bs) s (hl ▸ hb)
    exact ⟨hframe, hloop, fun _ => ⟨hhead, hothers⟩, nofun⟩
  | false => exact ⟨.refl _, rfl, nofun, fun _ => rfl⟩

/-- R32: what hearing a cell leaves of the head records. -/
theorem State.Heard.heads {r : State} (h : s.Heard bs r) (hl : s.env.heads.length = s.env.set.heads.length) :
    (s.env.set.known (cellSource bs) = true → r.env.head (cellSource bs) = heardHead bs s.env)
      ∧ (∀ b, b ≠ cellSource bs → r.env.head b = s.env.head b)
      ∧ (s.env.set.known (cellSource bs) = false → r.env = s.env) := by
  obtain ⟨j, hj⟩ := h.env
  rw [hj]
  exact ⟨fun hk => heard_head (p := (s.env, j)) hk hl, fun b hb => heard_head_ne hb, fun hk => heard_unknown (p := (s.env, j)) hk⟩

end Sys2Proof.Machine

open Sys2Proof Sys2Proof.Machine

/-- Settles O14. -/
theorem fieldCellIsForwarded : Obligations.FieldCellIsForwarded := by
  intro bs s hp hg h1 h2
  obtain ⟨r, hr, hexec⟩ := exec_field (c := .forwardedCell .field bs) rfl hp hg
  obtain ⟨hset, hclock, -, -⟩ := hr.frame
  obtain ⟨hloop, -, h1F, hbad, hflight, hview, -⟩ := hr
  obtain ⟨_, _, loop, env, jobs⟩ := r
  obtain rfl : loop = { s.loop with badRun := 0 } := hloop
  refine ⟨fun hd hroom => ⟨_, hexec, ?_⟩, fun hd h3 h4 => ⟨_, hexec, ?_⟩⟩
  · rw [classifyField_untaken h1 h2 (by rw [hset]; exact hd)]
    split
    · exact ⟨⟨rfl, rfl, rfl, rfl, rfl, hset, hclock, h1F, hflight, hview⟩, rfl, hbad⟩
    · rw [State.offer_line, Loop.offerL_room (by exact hroom)]
      exact ⟨⟨rfl, rfl, rfl, rfl, rfl, hset, hclock, h1F, hflight, hview⟩, rfl, hbad⟩
  · rw [classifyField_own h1 h2 (by rw [hset]; exact hd) h3 h4]
    exact ⟨⟨rfl, rfl, rfl, rfl, rfl, hset, hclock, h1F, hflight, hview⟩, rfl, congrArg (· + 1#32) hbad⟩

/-- Settles O22. -/
theorem sampleUpdatesHeadRecord : Obligations.SampleUpdatesHeadRecord := by
  intro bs s hp hshape hg hkind
  obtain ⟨r, hr, hexec⟩ := exec_field (c := .sample bs) rfl hp hg
  rw [State.classifyField, if_pos hkind] at hexec
  obtain ⟨⟨hheads, -⟩, henv, -⟩ := hshape
  obtain ⟨hself, hne, hunknown⟩ := hr.heads (henv.trans hheads.symm)
  obtain ⟨hframe, hloop, hknown, hnone⟩ := takeSample_heads (bs := bs) (s := r)
    (by rw [hr.frame.heads, henv, hr.frame.set, hheads])
  have hall := hr.frame.trans hframe
  obtain ⟨fenv, fbad, -, -, fcount⟩ := State.forwardUp_frame bs (r.takeSample bs)
  rw [hr.frame.set] at hknown hnone
  refine ⟨_, hexec, (congrArg Env.set fenv).trans hall.set, (congrArg Env.clock fenv).trans hall.clock,
    (congrArg Env.now fenv).trans hall.now, fbad.trans (by rw [hloop, hr.loop]), fun hk => ?_, fun hk => ?_,
    State.forwardUp_lQueue hall.set (hloop.trans hr.loop)⟩
  · obtain ⟨hhead, hothers⟩ := hknown hk
    rw [State.creditWatch_env, fenv, hhead, headAfter_congr hr.frame, hself hk]
    exact ⟨rfl, fun b hb => (hothers b hb).trans (hne b hb)⟩
  · rw [State.creditWatch_env, State.creditWatch_jobs, fenv, fcount, hnone hk]
    exact ⟨congrArg Env.heads (hunknown hk), congrArg (· + 1#32) hr.bad3F⟩
end

section
/-!
PROOFS. STATUS cells: what the items of one write of their actuator's record (spec/04 R63, R75, R76).
-/

namespace Sys2Proof.Machine

variable {s : State} {e : Env} {heater : Bool} {i : Nat} {j j' j'' : Jobs} {xs ys : List Slot} {x : Slot}

/-! ## Taking STATE items -/

/-- Of what a command alone writes of the actuators, taking the STATE items has moved what R63 says of actuator `i`; its
fault and its run time are left open. -/
structure Jobs.StatusTaken (heater : Bool) (i : Nat) (items : List Slot) (j j' : Jobs) : Prop where
  reported : (j'.act i).reported = items.foldl (reportedByStatus heater) (j.act i).reported
  resp : (j'.act i).resp =
    if items.any (fun x => (stateCodeOf x.field1).isSome) then .responsive else (j.act i).resp
  settled : (j'.act i).settled = (j.act i).settled
  others : j.OthersKeep i j'
  length : j'.acts.length = j.acts.length

theorem Jobs.StatusTaken.append (h : Jobs.StatusTaken heater i xs j j') (h' : Jobs.StatusTaken heater i ys j' j'') :
    Jobs.StatusTaken heater i (xs ++ ys) j j'' where
  reported := by rw [h'.reported, h.reported, List.foldl_append]
  resp := by
    rw [h'.resp, h.resp, List.any_append]
    cases xs.any (fun x => (stateCodeOf x.field1).isSome) <;> cases ys.any (fun x => (stateCodeOf x.field1).isSome) <;> rfl
  settled := h'.settled.trans h.settled
  others := fun k hk => (h'.others k hk).trans (h.others k hk)
  length := h'.length.trans h.length

/-- A change that leaves all that a command alone writes. -/
theorem Jobs.StatusTaken.of_hull (h : j'.hull = j.hull) : Jobs.StatusTaken heater i [] j j' where
  reported := congrArg (fun v => v.1) (Jobs.hull_act h i)
  resp := congrArg (fun v => v.2.1) (Jobs.hull_act h i)
  settled := congrArg (fun v => v.2.2.2.2.2) (Jobs.hull_act h i)
  others := fun k _ => Jobs.hull_act h k
  length := Jobs.hull_acts_length h

/-- What comes after the items have been taken. -/
theorem Jobs.StatusTaken.andThen (h : Jobs.StatusTaken heater i xs j j') (h' : Jobs.StatusTaken heater i [] j' j'') :
    Jobs.StatusTaken heater i xs j j'' :=
  List.append_nil xs ▸ h.append h'

theorem Jobs.StatusTaken.hull (h : Jobs.StatusTaken heater i xs j j') (hh : j''.hull = j'.hull) :
    Jobs.StatusTaken heater i xs j j'' := h.andThen (.of_hull hh)

theorem Jobs.act_setFault (i : Nat) (f : ActFault) (j : Jobs) :
    (j.setFault i f).act i = { j.act i with fault := f } ∨ (j.setFault i f).act i = j.act i := by
  by_cases h : i < j.acts.length
  · exact .inl (Jobs.act_updateAct_self _ h)
  · refine .inr ?_
    unfold Jobs.setFault Jobs.updateAct Jobs.act
    rw [List.getD_eq_default _ _ (by simpa using h), List.getD_eq_default _ _ (Nat.le_of_not_lt h)]

theorem Jobs.StatusTaken.setFault (f : ActFault) (h : Jobs.StatusTaken heater i xs j j') :
    Jobs.StatusTaken heater i xs j (j'.setFault i f) := by
  refine h.andThen ⟨?_, ?_, ?_, fun k hk => congrArg ActRuntime.view (Jobs.act_updateAct_ne _ hk), updateAt_length ..⟩ <;>
    rcases Jobs.act_setFault i f j' with ha | ha <;> rw [ha] <;> rfl

theorem Jobs.StatusTaken.unjam (h : Jobs.StatusTaken heater i xs j j') : Jobs.StatusTaken heater i xs j (j'.unjam i) := by
  unfold Jobs.unjam
  split
  · exact h.setFault _
  · exact h

theorem Jobs.StatusTaken.endFlight (f : Flight) (r : CmdResult) (h : Jobs.StatusTaken heater i xs j j') :
    Jobs.StatusTaken heater i xs j (j'.endFlight e f r) :=
  have hleft : Jobs.StatusTaken heater i xs j { j' with flight := j'.flight.filter (fun g => g.idx != f.idx) } :=
    ⟨h.reported, h.resp, h.settled, h.others, h.length⟩
  hleft.hull ((Jobs.Moves.refl (dry := false)).fenceTest.tellOrigin f.origin f.idx f.action r).hull_eq

theorem Jobs.hull_lostTest (e : Env) (j : Jobs) : (j.lostTest e).hull = j.hull := by
  unfold Jobs.lostTest
  split <;> rfl

theorem Jobs.hull_tellDiscord (e : Env) (i : Nat) (j : Jobs) : (j.tellDiscord e i).hull = j.hull := by
  unfold Jobs.tellDiscord
  split <;> rfl

/-- R63: the report itself. -/
theorem Jobs.statusTaken_setReported {code : StateCode} (hi : i < j.acts.length) (hc : stateCodeOf x.field1 = some code) :
    Jobs.StatusTaken heater i [x] j
      (j.setReported e i code x.field2 (if heater then some x.field3 else none)) := by
  have hset : Jobs.StatusTaken heater i [x] j (j.updateAct i (fun a =>
      { a with
        reported := ⟨code, if code == .duty then x.field2 else 0,
          (if heater then some x.field3 else none).getD a.reported.units⟩
        resp := .responsive })) := by
    refine ⟨?_, ?_, ?_, fun k hk => congrArg ActRuntime.view (Jobs.act_updateAct_ne _ hk), updateAt_length ..⟩ <;>
      rw [Jobs.act_updateAct_self _ hi]
    · cases heater <;> simp [reportedByStatus, hc]
    · simp [hc]
  unfold Jobs.setReported
  dsimp only
  split
  · exact hset.hull (Jobs.hull_lostTest ..)
  · exact hset

theorem Jobs.statusTaken_statusReport {code : StateCode} (hi : i < j.acts.length) (hc : stateCodeOf x.field1 = some code) :
    Jobs.StatusTaken heater i [x] j
      (j.statusReport e i code x.field2 (if heater then some x.field3 else none)) := by
  have hset := Jobs.statusTaken_setReported (heater := heater) (e := e) hi hc
  unfold Jobs.statusReport
  generalize j.setReported e i code x.field2 (if heater then some x.field3 else none) = j' at hset ⊢
  dsimp only
  split
  · exact hset
  · exact hset.hull ((Jobs.hull_tellDiscord ..).trans (Jobs.hull_updateAct i (fun a => { a with discord := true }) (fun _ => rfl) j'))

theorem Jobs.StatusTaken.positionStatus {f : Flight} (hf : f.idx = i) (opened : Bool) (code : StateCode)
    (h : Jobs.StatusTaken heater i xs j j') : Jobs.StatusTaken heater i xs j (j'.positionStatus e f opened code) := by
  unfold Jobs.positionStatus
  rw [hf]
  split
  · exact h.unjam.endFlight ..
  · split
    · exact (h.setFault _).endFlight ..
    · exact h

theorem Jobs.flightOf_idx {f : Flight} (h : j.flightOf i = some f) : f.idx = i := by
  simpa using List.find?_some h

/-- R63, R75, R76: one STATE item. -/
theorem Jobs.statusTaken_statusItem (e : Env) (x : Slot) (hi : i < j.acts.length) :
    Jobs.StatusTaken ((e.set.act i).kind == .heater) i [x] j (j.statusItem e i x) := by
  unfold Jobs.statusItem
  cases hc : stateCodeOf x.field1 with
  | none =>
    exact ⟨by simp [reportedByStatus, hc], by simp [hc], rfl, fun _ _ => rfl, rfl⟩
  | some code =>
    dsimp only
    generalize ((e.set.act i).kind == .heater) = heater
    generalize hu : (if heater then some x.field3 else none) = units
    have htaken : Jobs.StatusTaken heater i [x] j (match j.flightOf i with
        | some f =>
            match f.action with
            | .position opened => (j.setReported e i code x.field2 units).positionStatus e f opened code
            | _ => j.statusReport e i code x.field2 units
        | none => j.statusReport e i code x.field2 units) := by
      rw [← hu]
      split
      · next f hf =>
        split
        · exact (Jobs.statusTaken_setReported hi hc).positionStatus (Jobs.flightOf_idx hf) ..
        · exact Jobs.statusTaken_statusReport hi hc
      · exact Jobs.statusTaken_statusReport hi hc
    split
    · exact htaken.hull rfl
    · exact htaken

/-- R63: the items of a STATUS cell, in slot order. -/
theorem statusItems_taken (items : List Slot) (s : State) (hi : i < s.jobs.acts.length) :
    let t := items.foldl (fun s x => s.work (fun e j => j.statusItem e i x)) s
    t.env = s.env ∧ t.loop = s.loop ∧ Jobs.StatusTaken ((s.env.set.act i).kind == .heater) i items s.jobs t.jobs := by
  induction items generalizing s with
  | nil => exact ⟨rfl, rfl, .of_hull rfl⟩
  | cons x items ih =>
    have hx : Jobs.StatusTaken ((s.env.set.act i).kind == .heater) i [x] s.jobs
        (s.work (fun e j => j.statusItem e i x)).jobs :=
      (Jobs.statusTaken_statusItem s.env x hi).hull (State.hull_work ..)
    obtain ⟨henv, hloop, hrest⟩ := ih (s.work (fun e j => j.statusItem e i x)) (hx.length ▸ hi)
    exact ⟨henv, hloop, hx.append hrest⟩

theorem firstWhere_lt {α : Type} {p : α → Bool} {l : List α} {n : Nat} (h : firstWhere p l = some n) : n < l.length := by
  induction l generalizing n with
  | nil => cases h
  | cons x l ih =>
    unfold firstWhere at h
    split at h
    · cases h
      exact Nat.zero_lt_succ _
    · obtain ⟨m, hm, rfl⟩ := Option.map_eq_some_iff.mp h
      exact Nat.succ_lt_succ (ih hm)

/-- R63: what taking a STATUS cell does. -/
theorem takeStatus_taken {bs : List Byte} (hl : s.env.set.actuators.length = s.jobs.acts.length) :
    (s.takeStatus bs).env = s.env ∧ (s.takeStatus bs).loop = s.loop
      ∧ (s.env.set.actAt (cellSource bs) = none → s.takeStatus bs = s)
      ∧ ∀ i, s.env.set.actAt (cellSource bs) = some i → Jobs.StatusTaken ((s.env.set.act i).kind == .heater) i
          (slotsWith 0x20 bs) s.jobs (s.takeStatus bs).jobs := by
  unfold State.takeStatus
  cases ha : s.env.set.actAt (cellSource bs) with
  | none => exact ⟨rfl, rfl, fun _ => rfl, nofun⟩
  | some i =>
    obtain ⟨henv, hloop, htaken⟩ := statusItems_taken (slotsWith 0x20 bs) s (hl ▸ firstWhere_lt ha)
    exact ⟨henv, hloop, nofun, fun k hk => Option.some.inj hk ▸ htaken⟩

end Sys2Proof.Machine

open Sys2Proof Sys2Proof.Machine

/-- Settles O28. -/
theorem statusSetsReportedState : Obligations.StatusSetsReportedState := by
  intro bs s hp hshape hg hkind
  obtain ⟨r, hr, hexec⟩ := exec_field (c := .status bs) rfl hp hg
  rw [State.classifyField, if_neg (by rw [hkind]; decide), if_pos hkind] at hexec
  obtain ⟨henv, hloop, hnone, hsome⟩ := takeStatus_taken (bs := bs) (s := r)
    (by rw [hr.frame.set, hr.acts, hshape.1.2.1, hshape.acts])
  obtain ⟨fenv, -, facts, fflight, -⟩ := State.forwardUp_frame bs (r.takeStatus bs)
  have hact : ∀ i, ((r.takeStatus bs).forwardUp bs).jobs.act i = (r.takeStatus bs).jobs.act i := fun i => by
    unfold Jobs.act
    rw [facts]
  rw [hr.frame.set] at hnone hsome
  refine ⟨_, hexec, (congrArg Env.set (fenv.trans henv)).trans hr.frame.set,
    (congrArg Env.clock (fenv.trans henv)).trans hr.frame.clock,
    State.forwardUp_lQueue ((congrArg Env.set henv).trans hr.frame.set) (hloop.trans hr.loop), fun i hi => ?_, fun ha => ?_⟩
  · obtain ⟨hreported, hresp, hsettled, hothers, -⟩ := hsome i hi
    simp only [State.creditWatch_jobs, Jobs.OthersKeep, hact]
    refine ⟨hreported.trans ?_, fun hany => hresp.trans (if_pos hany), hsettled.trans ?_,
      fun k hk => (hothers k hk).trans (hr.view k)⟩
    · rw [show (r.jobs.act i).reported = (s.jobs.act i).reported from congrArg (fun v => v.1) (hr.view i)]
    · exact congrArg (fun v => v.2.2.2.2.2) (hr.view i)
  · rw [hnone ha] at fflight hact hexec
    simp only [hnone ha, State.creditWatch_jobs, hact]
    exact ⟨fflight.trans hr.flight, hr.view⟩
end

section
/-!
PROOFS. The sizes of the Condition Table and of the policy records: every operation of the Condition and Report units keeps
them (R148, R159).
-/

namespace Sys2Proof.Machine

/-! ## The Condition and Report units (R148, R159) -/

/-- The sizes of the Condition Table and of the table of policy records. -/
def Tele.sizes (t : Tele) : Nat × Nat := (t.conds.length, t.policies.length)

variable {v : TeleEnv} {t t' : Tele}

@[simp] theorem Tele.sizes_updateCond (k : CondKind) (f : Cond → Cond) (t : Tele) :
    (t.updateCond k f).sizes = t.sizes := by simp [Tele.sizes, Tele.updateCond]

@[simp] theorem Tele.sizes_updatePolicy (i : Nat) (f : PolicyRuntime → PolicyRuntime) (t : Tele) :
    (t.updatePolicy i f).sizes = t.sizes := by simp [Tele.sizes, Tele.updatePolicy]

@[simp] theorem Tele.sizes_policyPacked (v : TeleEnv) (i : Nat) (t : Tele) : (t.policyPacked v i).sizes = t.sizes :=
  Tele.sizes_updatePolicy ..

@[simp] theorem Tele.sizes_noticePacked (n : Notice) (t : Tele) : (t.noticePacked n).sizes = t.sizes := by
  cases n with
  | condition k => exact Tele.sizes_updateCond ..
  | _ => rfl

/-- R166: what a packing of the routine assembler leaves of the units is what the packing of a due entry or of a notice does. -/
theorem packOne_packed {c : ReportCell} {r : ReportCell × Tele} (h : packOne v c t = some r) :
    (∃ i, r.2 = t.policyPacked v i) ∨ ∃ n, r.2 = t.noticePacked n := by
  have due : ∀ {o : Option Nat}, (match o with
      | some i => some (c.packRoutine v (.policy i (packed (v.figure i))), t.policyPacked v i)
      | none => none) = some r → ∃ i, r.2 = t.policyPacked v i := by
    intro o h
    cases o with
    | none => cases h
    | some i => cases h; exact ⟨i, rfl⟩
  unfold packOne at h
  cases hn : t.notices with
  | nil => rw [hn] at h; exact .inl (due h)
  | cons n rest =>
    rw [hn] at h
    dsimp only at h
    split at h
    · cases h; exact .inr ⟨n, rfl⟩
    · exact .inl (due h)

theorem Tele.sizes_packOne {c : ReportCell} {r : ReportCell × Tele} (h : packOne v c t = some r) :
    r.2.sizes = t.sizes := by
  rcases packOne_packed h with ⟨i, hr⟩ | ⟨n, hr⟩ <;> simp [hr]

theorem Tele.sizes_packRoutine (h : t.packRoutine v = some t') : t'.sizes = t.sizes := by
  unfold Tele.packRoutine at h
  split at h <;>
  · obtain ⟨r, hr, rfl⟩ := Option.map_eq_some_iff.mp h
    exact Tele.sizes_packOne hr

theorem Tele.sizes_packUrgent (h : t.packUrgent = some t') : t'.sizes = t.sizes := by
  unfold Tele.packUrgent at h
  split at h
  · cases h
  · split at h
    · cases h; exact Tele.sizes_updateCond ..
    · cases h

@[simp] theorem Tele.sizes_pack (v : TeleEnv) (t : Tele) : (t.pack v).sizes = t.sizes := by
  have loop : ∀ {step : Tele → Option Tele}, (∀ {t t'}, step t = some t' → t'.sizes = t.sizes) →
      ∀ n t, (packLoop step n t).sizes = t.sizes := fun h n t =>
    packLoop_keeps (fun t t' => t'.sizes = t.sizes) (fun _ => rfl) (fun h h' => h'.trans h) h n t
  exact (loop Tele.sizes_packRoutine ..).trans (loop Tele.sizes_packUrgent ..)

/-- A fold of changes that each keep the sizes. -/
theorem Tele.sizes_foldl {β : Type} (f : Tele → β → Tele) (h : ∀ t b, (f t b).sizes = t.sizes) (l : List β) (t : Tele) :
    (l.foldl f t).sizes = t.sizes :=
  foldl_keeps (fun t t' : Tele => t'.sizes = t.sizes) (fun _ => rfl) (fun h h' => h'.trans h) f h l t

@[simp] theorem Tele.sizes_dropOldest (t : Tele) : t.dropOldest.sizes = t.sizes := by
  unfold Tele.dropOldest
  split
  · rfl
  · split
    · exact Tele.sizes_updateCond ..
    · rfl

@[simp] theorem Tele.sizes_postNotice (v : TeleEnv) (n : Notice) (t : Tele) : (t.postNotice v n).sizes = t.sizes := by
  refine (Tele.sizes_pack v _).trans ?_
  show (if t.notices.length ≥ Config.noticeMax then t.dropOldest else t).sizes = t.sizes
  split <;> simp

@[simp] theorem Tele.sizes_noticeKind (v : TeleEnv) (k : CondKind) (t : Tele) : (t.noticeKind v k).sizes = t.sizes := by
  unfold Tele.noticeKind
  split <;> simp

@[simp] theorem Tele.sizes_report (v : TeleEnv) (k : CondKind) (t : Tele) : (t.report v k).sizes = t.sizes := by
  have join : (t.joinUrgent k).sizes = t.sizes := by unfold Tele.joinUrgent; split <;> rfl
  unfold Tele.report
  split <;> simp [join]

@[simp] theorem Tele.sizes_deriveAlert (v : TeleEnv) (t : Tele) : (t.deriveAlert v).sizes = t.sizes := by
  unfold Tele.deriveAlert
  split <;> rfl

@[simp] theorem Tele.sizes_alertOnRaise (v : TeleEnv) (k : CondKind) (t : Tele) :
    (t.alertOnRaise v k).sizes = t.sizes := by
  unfold Tele.alertOnRaise
  split
  · simp
  · split <;> rfl

@[simp] theorem Tele.sizes_raise (v : TeleEnv) (k : CondKind) (t : Tele) : (t.raise v k).sizes = t.sizes := by
  unfold Tele.raise
  split
  · rfl
  · dsimp only
    split <;> simp

@[simp] theorem Tele.sizes_clear (v : TeleEnv) (k : CondKind) (t : Tele) : (t.clear v k).sizes = t.sizes := by
  unfold Tele.clear
  split
  · rfl
  · dsimp only
    split <;> simp

@[simp] theorem Tele.sizes_acknowledge (v : TeleEnv) (k : CondKind) (t : Tele) : (t.acknowledge v k).sizes = t.sizes := by
  unfold Tele.acknowledge
  split
  · rfl
  · dsimp only
    split <;> simp

@[simp] theorem Tele.sizes_becomeDue (i : Nat) (t : Tele) : (t.becomeDue i).sizes = t.sizes := by
  unfold Tele.becomeDue
  split
  · rfl
  · exact Tele.sizes_updatePolicy ..

@[simp] theorem Tele.sizes_valueEvent (v : TeleEnv) (i : Nat) (t : Tele) : (t.valueEvent v i).sizes = t.sizes := by
  unfold Tele.valueEvent
  split
  · rfl
  · split <;> simp

@[simp] theorem Tele.sizes_quantityChanged (v : TeleEnv) (q : Nat) (t : Tele) :
    (t.quantityChanged v q).sizes = t.sizes :=
  (Tele.sizes_pack ..).trans (Tele.sizes_foldl _ (fun t i => by split <;> simp) _ t)

@[simp] theorem Tele.sizes_figuresChanged (v : TeleEnv) (b : List (Option Int)) (t : Tele) :
    (t.figuresChanged v b).sizes = t.sizes :=
  Tele.sizes_foldl _ (fun t q => by split <;> simp) _ t

@[simp] theorem Tele.sizes_repost (v : TeleEnv) (t : Tele) : (t.repost v).sizes = t.sizes :=
  Tele.sizes_foldl _ (fun t k => by split <;> simp) _ t

@[simp] theorem Tele.sizes_allDue (v : TeleEnv) (t : Tele) : (t.allDue v).sizes = t.sizes :=
  (Tele.sizes_pack ..).trans (Tele.sizes_foldl _ (fun t i => by split <;> simp) _ t)

@[simp] theorem Tele.sizes_minimumExpiry (v : TeleEnv) (i : Nat) (t : Tele) : (t.minimumExpiry v i).sizes = t.sizes := by
  unfold Tele.minimumExpiry
  split
  · dsimp only
    split <;> simp
  · rfl

@[simp] theorem Tele.sizes_maximumExpiry (v : TeleEnv) (i : Nat) (t : Tele) : (t.maximumExpiry v i).sizes = t.sizes := by
  unfold Tele.maximumExpiry
  split <;> simp

@[simp] theorem Tele.sizes_packHoldExpiry (c : RoutineCell) (t : Tele) : (t.packHoldExpiry c).sizes = t.sizes := by
  unfold Tele.packHoldExpiry
  split
  · split <;> rfl
  · rfl

@[simp] theorem Tele.sizes_pulseExpiry (t : Tele) : t.pulseExpiry.sizes = t.sizes := by
  unfold Tele.pulseExpiry
  split <;> rfl

@[simp] theorem Tele.sizes_urgentSent (v : TeleEnv) (t : Tele) : (t.urgentSent v).sizes = t.sizes := Tele.sizes_pack ..

@[simp] theorem Tele.sizes_openedSent (v : TeleEnv) (t : Tele) : (t.openedSent v).sizes = t.sizes := Tele.sizes_pack ..

@[simp] theorem Tele.sizes_policyWritten (v : TeleEnv) (old : PolicySettings) (i : Nat) (t : Tele) :
    (t.policyWritten v old i).sizes = t.sizes := by
  have moved : (({ t with due := t.due.erase i } : Tele).updatePolicy i (fun _ => .powerOn)).sizes = t.sizes :=
    Tele.sizes_updatePolicy ..
  unfold Tele.policyWritten
  dsimp only
  split
  · split <;> simp [moved]
  · split <;> simp

@[simp] theorem Tele.sizes_alertsWritten (v : TeleEnv) (old : AlertMode) (t : Tele) :
    (t.alertsWritten v old).sizes = t.sizes := by
  unfold Tele.alertsWritten
  split
  · exact Tele.sizes_deriveAlert ..
  · simp
  · rfl
  · rfl

/-- R155, R171: a restart sets up all 22 kinds and 24 policy records again. -/
@[simp] theorem Tele.sizes_restarted (v : TeleEnv) (unset : Bool) (t : Tele) : (t.restarted v unset).sizes = (22, 24) :=
  ((Tele.sizes_pack ..).trans (Tele.sizes_deriveAlert ..)).trans rfl

end Sys2Proof.Machine
end

section
/-!
PROOFS. The sizes of the tables that the blocks write: every operation of a block keeps them.
-/

namespace Sys2Proof.Machine

/-- The sizes of the tables that the blocks write: frost-suspect flags, actuators, runs, zones, claims, conditions and
policies (R36, R61, R97, R121, R138, R148, R159). -/
def Jobs.sizes (j : Jobs) : List Nat × Nat × Nat :=
  ([j.suspects.length, j.acts.length, j.runs.length, j.frost.zones.length, j.power.claims.length], j.tele.sizes)

variable {dry : Bool} {e : Env} {j j' : Jobs}

/-! ## Updates -/

@[simp] theorem Jobs.sizes_updateAct (i : Nat) (f : ActRuntime → ActRuntime) (j : Jobs) :
    (j.updateAct i f).sizes = j.sizes := by simp [Jobs.sizes]

@[simp] theorem Jobs.sizes_updateRun (n : Nat) (f : Run → Run) (j : Jobs) : (j.updateRun n f).sizes = j.sizes := by
  unfold Jobs.updateRun
  split <;> simp [Jobs.sizes]

@[simp] theorem Jobs.sizes_updateZone (z : Nat) (f : Zone → Zone) (j : Jobs) : (j.updateZone z f).sizes = j.sizes := by
  simp [Jobs.sizes]

@[simp] theorem Jobs.sizes_updateClaim (c : Nat) (f : Claim → Claim) (j : Jobs) : (j.updateClaim c f).sizes = j.sizes := by
  simp [Jobs.sizes]

@[simp] theorem Jobs.sizes_guarding (f : GuardRecord → GuardRecord) (j : Jobs) : (j.guarding f).sizes = j.sizes := rfl
@[simp] theorem Jobs.sizes_stored (f : Store → Store) (j : Jobs) : (j.stored f).sizes = j.sizes := rfl
@[simp] theorem Jobs.sizes_count (f : Counters → Counters) (j : Jobs) : (j.count f).sizes = j.sizes := rfl
@[simp] theorem Jobs.sizes_post (ev : Event) (j : Jobs) : (j.post ev).sizes = j.sizes := rfl
@[simp] theorem Jobs.sizes_tell (evs : List Event) (j : Jobs) : (j.tell evs).sizes = j.sizes := rfl
@[simp] theorem Jobs.sizes_startPass (j : Jobs) : j.startPass.sizes = j.sizes := rfl

/-- An operation of the Condition and Report units that keeps their tables. -/
theorem Jobs.sizes_tele' {f : TeleEnv → Tele → Tele} (hf : ∀ v t, (f v t).sizes = t.sizes) (e : Env) (j : Jobs) :
    (j.tele' f e).sizes = j.sizes := congrArg (Prod.mk _) (hf ..)

@[simp] theorem Jobs.sizes_raise (e : Env) (k : CondKind) (j : Jobs) : (j.raise e k).sizes = j.sizes :=
  Jobs.sizes_tele' (fun _ _ => Tele.sizes_raise ..) e j

@[simp] theorem Jobs.sizes_clear (e : Env) (k : CondKind) (j : Jobs) : (j.clear e k).sizes = j.sizes :=
  Jobs.sizes_tele' (fun _ _ => Tele.sizes_clear ..) e j

@[simp] theorem Jobs.sizes_keep (e : Env) (k : CondKind) (b : Bool) (j : Jobs) : (j.keep e k b).sizes = j.sizes := by
  unfold Jobs.keep
  split <;> simp

@[simp] theorem Jobs.sizes_raiseWhen (e : Env) (k : CondKind) (b : Bool) (j : Jobs) :
    (j.raiseWhen e k b).sizes = j.sizes := by
  unfold Jobs.raiseWhen
  split <;> simp

/-! ## Folds and tellings -/

/-- A fold of changes that each keep the sizes. -/
theorem Jobs.sizes_foldl {β : Type} (f : Jobs → β → Jobs) (h : ∀ j b, (f j b).sizes = j.sizes) (l : List β) (j : Jobs) :
    (l.foldl f j).sizes = j.sizes :=
  foldl_keeps (fun j j' : Jobs => j'.sizes = j.sizes) (fun _ => rfl) (fun h h' => h'.trans h) f h l j

/-- The hull holds the sizes but for those of the Condition and Report units. -/
theorem Jobs.sizes_of_hull (h : j'.hull = j.hull) (ht : j'.tele.sizes = j.tele.sizes) : j'.sizes = j.sizes := by
  have hsus : j'.suspects.length = j.suspects.length := congrArg Hull.suspects h
  have hruns : j'.runs.length = j.runs.length := congrArg Hull.runs h
  have hzones : j'.frost.zones.length = j.frost.zones.length := congrArg Hull.zones h
  have hclaims : j'.power.claims.length = j.power.claims.length := congrArg Hull.claims h
  unfold Jobs.sizes
  rw [hsus, Jobs.hull_acts_length h, hruns, hzones, hclaims, ht]

/-- What a telling reaches keeps every size. -/
theorem Jobs.Moves.sizes (h : Jobs.Moves dry e j j') : j'.sizes = j.sizes :=
  Jobs.sizes_of_hull h.hull_eq (h.tele (fun t => t.sizes = j.tele.sizes)
    (fun _ _ _ _ _ ht => (Tele.sizes_raise ..).trans ht) (fun _ _ _ _ _ ht => (Tele.sizes_clear ..).trans ht)
    (fun _ _ _ ht => (Tele.sizes_postNotice ..).trans ht) (fun _ _ _ ht => (Tele.sizes_quantityChanged ..).trans ht)
    (fun _ _ _ ht => (Tele.sizes_figuresChanged ..).trans ht) (fun _ _ ht => (Tele.sizes_repost ..).trans ht) rfl)

/-! ## The Actuator unit (spec/04) -/

@[simp] theorem Jobs.sizes_tellOrigin (o : Origin) (i : Nat) (a : Action) (r : CmdResult) (j : Jobs) :
    (j.tellOrigin e o i a r).sizes = j.sizes := (Jobs.Moves.refl (dry := false)).tellOrigin .. |>.sizes

@[simp] theorem Jobs.sizes_cancel (o : Origin) (i : Nat) (a : Action) (j : Jobs) :
    (j.cancel e o i a).sizes = j.sizes := (Jobs.Moves.refl (dry := false)).cancel .. |>.sizes

@[simp] theorem Jobs.sizes_refuse (o : Origin) (i : Nat) (a : Action) (r : Reason) (j : Jobs) :
    (j.refuse e o i a r).sizes = j.sizes := (Jobs.Moves.refl (dry := false)).refuse .. |>.sizes

@[simp] theorem Jobs.sizes_refuseFull (o : Origin) (i : Nat) (a : Action) (j : Jobs) :
    (j.refuseFull e o i a).sizes = j.sizes := (Jobs.Moves.refl (dry := false)).refuseFull .. |>.sizes

@[simp] theorem Jobs.sizes_withdrawOperator (i : Nat) (j : Jobs) : (j.withdrawOperator e i).sizes = j.sizes :=
  (Jobs.Moves.refl (dry := false)).withdrawOperator .. |>.sizes

@[simp] theorem Jobs.sizes_fenceTest (j : Jobs) : (j.fenceTest e).sizes = j.sizes :=
  (Jobs.Moves.refl (dry := false)).fenceTest.sizes

@[simp] theorem Jobs.sizes_itemsLeft (j : Jobs) : (j.itemsLeft e).sizes = j.sizes :=
  (Jobs.Moves.refl (dry := false)).itemsLeft.sizes

@[simp] theorem Jobs.sizes_request (o : Origin) (l : List Ask) (j : Jobs) : (Jobs.request e o l j).sizes = j.sizes :=
  (Jobs.Moves.refl (dry := false)).request .. |>.sizes

@[simp] theorem Jobs.sizes_endHold (c : HoldEnd) (i : Nat) (j : Jobs) : (j.endHold e c i).sizes = j.sizes :=
  (Jobs.Moves.refl (dry := false)).endHold .. |>.sizes

@[simp] theorem Jobs.sizes_tellHold (i : Nat) (b : Bool) (j : Jobs) : (j.tellHold e i b).sizes = j.sizes :=
  (Jobs.Moves.refl (dry := false)).tellHold .. |>.sizes

@[simp] theorem Jobs.sizes_guardGroup (l : List Ask) (j : Jobs) : (j.guardGroup e l).sizes = j.sizes :=
  (Jobs.Moves.refl (dry := false)).guardGroup .. |>.sizes

@[simp] theorem Jobs.sizes_issue (i : Nat) (a : Action) (o : Origin) (j : Jobs) : (j.issue e i a o).sizes = j.sizes := by
  unfold Jobs.issue
  exact (Jobs.sizes_itemsLeft _).trans ((Jobs.sizes_count ..).trans (Jobs.sizes_updateAct ..))

@[simp] theorem Jobs.sizes_endFlight (f : Flight) (r : CmdResult) (j : Jobs) : (j.endFlight e f r).sizes = j.sizes :=
  (Jobs.sizes_tellOrigin ..).trans (Jobs.sizes_fenceTest _)

@[simp] theorem Jobs.sizes_lostTest (j : Jobs) : (j.lostTest e).sizes = j.sizes := by
  unfold Jobs.lostTest
  split <;> simp

@[simp] theorem Jobs.sizes_setReported (i : Nat) (c : StateCode) (d : Nat) (u : Option Nat) (j : Jobs) :
    (j.setReported e i c d u).sizes = j.sizes := by
  unfold Jobs.setReported
  dsimp only
  split <;> simp

@[simp] theorem Jobs.sizes_setFault (i : Nat) (f : ActFault) (j : Jobs) : (j.setFault i f).sizes = j.sizes :=
  Jobs.sizes_updateAct ..

@[simp] theorem Jobs.sizes_unjam (i : Nat) (j : Jobs) : (j.unjam i).sizes = j.sizes := by
  unfold Jobs.unjam
  split <;> simp

@[simp] theorem Jobs.sizes_tellDiscord (i : Nat) (j : Jobs) : (j.tellDiscord e i).sizes = j.sizes := by
  unfold Jobs.tellDiscord
  split <;> simp

@[simp] theorem Jobs.sizes_statusReport (i : Nat) (c : StateCode) (d : Nat) (u : Option Nat) (j : Jobs) :
    (j.statusReport e i c d u).sizes = j.sizes := by
  unfold Jobs.statusReport
  dsimp only
  split <;> simp

@[simp] theorem Jobs.sizes_answered (f : Flight) (c : StateCode) (d : Nat) (j : Jobs) :
    (j.answered e f c d).sizes = j.sizes := by
  have travels : ∀ l : List Flight, ({ j with flight := l } : Jobs).sizes = j.sizes := fun _ => rfl
  unfold Jobs.answered
  split
  · simp
  · simp
  · simp
  · split
    · simp
    · split
      · exact travels _
      · split <;> simp

@[simp] theorem Jobs.sizes_ackItem (i : Nat) (s : Slot) (j : Jobs) : (j.ackItem e i s).sizes = j.sizes := by
  unfold Jobs.ackItem
  split
  · rfl
  · split
    · split <;> simp
    · simp

@[simp] theorem Jobs.sizes_positionStatus (f : Flight) (b : Bool) (c : StateCode) (j : Jobs) :
    (j.positionStatus e f b c).sizes = j.sizes := by
  unfold Jobs.positionStatus
  split
  · simp
  · split <;> simp

@[simp] theorem Jobs.sizes_statusItem (i : Nat) (s : Slot) (j : Jobs) : (j.statusItem e i s).sizes = j.sizes := by
  unfold Jobs.statusItem
  split
  · rfl
  · next code _ =>
    have reported : ∀ units, (match j.flightOf i with
        | some f =>
            match f.action with
            | .position opened => (j.setReported e i code s.field2 units).positionStatus e f opened code
            | _ => j.statusReport e i code s.field2 units
        | none => j.statusReport e i code s.field2 units).sizes = j.sizes := by
      intro units
      split
      · split <;> simp
      · simp
    dsimp only
    split <;> exact reported _

@[simp] theorem Jobs.sizes_ackTimeout (i : Nat) (j : Jobs) : (j.ackTimeout e i).sizes = j.sizes := by
  unfold Jobs.ackTimeout
  split
  · rfl
  · split <;> simp

@[simp] theorem Jobs.sizes_travelTimeout (i : Nat) (j : Jobs) : (j.travelTimeout e i).sizes = j.sizes := by
  unfold Jobs.travelTimeout
  split
  · rfl
  · split <;> simp

@[simp] theorem Jobs.sizes_restExpiry (i : Nat) (j : Jobs) : (j.restExpiry i).sizes = j.sizes := by
  unfold Jobs.restExpiry
  split <;> simp

@[simp] theorem Jobs.sizes_runSecond (j : Jobs) : (j.runSecond e).sizes = j.sizes :=
  Jobs.sizes_foldl _ (fun j i => by split <;> simp) _ j

/-! ## The operator path (R78) -/

@[simp] theorem Jobs.sizes_operatorQueue (i : Nat) (x : OperatorItem) (j : Jobs) :
    (j.operatorQueue e i x).sizes = j.sizes := by
  have queued : (j.enqueue e .operator i x.action).1.sizes = j.sizes :=
    (Jobs.Moves.refl (dry := false)).enqueue .. |>.sizes
  unfold Jobs.operatorQueue
  split
  · next hp =>
    rw [hp] at queued
    split
    · exact queued
    · simpa [Jobs.startHold] using queued
  · next hp =>
    rw [hp] at queued
    dsimp only
    split <;> simpa using queued

@[simp] theorem Jobs.sizes_postOperator (n : Nat) (j : Jobs) : (j.postOperator e n).sizes = j.sizes := by
  have passed : ∀ k : Jobs, (k.pass e).sizes = k.sizes := fun k => (Jobs.Moves.refl (dry := false)).pass.sizes
  unfold Jobs.postOperator
  dsimp only
  split <;> simp [passed]

@[simp] theorem Jobs.sizes_operatorStart (i : Nat) (x : OperatorItem) (j : Jobs) :
    (j.operatorStart e i x).sizes = j.sizes := by
  unfold Jobs.operatorStart
  split
  · simp
  · dsimp only
    split <;> simp

@[simp] theorem Jobs.sizes_operatorItem (i : Nat) (x : OperatorItem) (j : Jobs) :
    (j.operatorItem e i x).sizes = j.sizes := by
  unfold Jobs.operatorItem
  split
  · simp
  · split
    · simp
    · split <;> simp

@[simp] theorem Jobs.sizes_operatorFence (j : Jobs) : (j.operatorFence e).sizes = j.sizes := by
  have joined : (j.join (.fence false)).1.sizes = j.sizes :=
    (Jobs.Moves.refl (dry := false) (e := e)).join .. |>.sizes
  unfold Jobs.operatorFence
  split
  · next hp => rw [hp] at joined; simpa using joined
  · next hp => rw [hp] at joined; simpa [Jobs.countRefusal] using joined

/-! ## The other blocks -/

@[simp] theorem Jobs.sizes_tariffChange (a c : Env) (j : Jobs) : (j.tariffChange a c).sizes = j.sizes := by
  unfold Jobs.tariffChange
  split <;> simp

@[simp] theorem Jobs.sizes_countJump (c : Clock) (t : TimeOfWeek) (j : Jobs) : (j.countJump c t).sizes = j.sizes := by
  unfold Jobs.countJump
  split <;> simp

@[simp] theorem Jobs.sizes_headStaleTest (j : Jobs) : (j.headStaleTest e).sizes = j.sizes := Jobs.sizes_keep ..

@[simp] theorem Jobs.sizes_leftStale (was : HeadState) (j : Jobs) : (j.leftStale e was).sizes = j.sizes := by
  unfold Jobs.leftStale
  split <;> simp

@[simp] theorem Jobs.sizes_fillEvaluate (b : Bool) (j : Jobs) : (j.fillEvaluate e b).sizes = j.sizes :=
  (Jobs.Moves.refl (dry := false)).fillEvaluate .. |>.sizes

@[simp] theorem Jobs.sizes_faultPump (n : Nat) (f : ActFault) (j : Jobs) : (j.faultPump e n f).sizes = j.sizes := by
  have ended : ∀ k : Jobs, (k.endRun e n).sizes = k.sizes := fun k => (Jobs.Moves.refl (dry := false)).endRun .. |>.sizes
  unfold Jobs.faultPump
  split <;> simp [ended]

@[simp] theorem Jobs.sizes_proveExpiry (n : Nat) (j : Jobs) : (j.proveExpiry e n).sizes = j.sizes := by
  unfold Jobs.proveExpiry
  dsimp only
  split
  · rfl
  · split
    · split <;> simp
    · simp

@[simp] theorem Jobs.sizes_dryExpiry (n : Nat) (j : Jobs) : (j.dryExpiry e n).sizes = j.sizes := by
  unfold Jobs.dryExpiry
  split <;> simp

@[simp] theorem Jobs.sizes_blindStartExpiry (j : Jobs) : (j.blindStartExpiry e).sizes = j.sizes := by
  have evaluated : ∀ k : Jobs, (k.guardEvaluate e .start).sizes = k.sizes := fun k =>
    (Jobs.Moves.refl (dry := false)).guardEvaluate .. |>.sizes
  unfold Jobs.blindStartExpiry
  split <;> simp [evaluated]

@[simp] theorem Jobs.sizes_heaterProveExpiry (z : Nat) (j : Jobs) : (j.heaterProveExpiry e z).sizes = j.sizes := by
  have evaluated : ∀ k : Jobs, (k.zoneEvaluate e z).sizes = k.sizes := fun k =>
    (Jobs.Moves.refl (dry := false)).zoneEvaluate .. |>.sizes
  unfold Jobs.heaterProveExpiry Jobs.failHeater
  split
  · dsimp only
    split <;> simp [evaluated]
  · rfl

@[simp] theorem Jobs.sizes_splitExpiry (j : Jobs) : (j.splitExpiry e).sizes = j.sizes := by
  unfold Jobs.splitExpiry
  split
  · exact Jobs.sizes_raise ..
  · rfl

@[simp] theorem Jobs.sizes_clearFault (i : Nat) (j : Jobs) : (j.clearFault e i).sizes = j.sizes := by
  unfold Jobs.clearFault
  split
  · rfl
  · dsimp only
    split
    · simp
    · simp
    · simp
    · split <;> simp

@[simp] theorem Jobs.sizes_releaseTrip (j : Jobs) : (j.releaseTrip e).1.sizes = j.sizes := by
  unfold Jobs.releaseTrip
  split
  · rfl
  · split
    · simp [Jobs.release, Jobs.askWord]
    · rfl

/-! ## What the owners of a table do at a write (R176) -/

@[simp] theorem Jobs.sizes_leaveHeaters (before : Settings) (j : Jobs) : (j.leaveHeaters e before).sizes = j.sizes := by
  refine Jobs.sizes_foldl _ (fun j z => ?_) _ j
  unfold Jobs.leaveHeater
  split
  · rfl
  · split
    · rfl
    · dsimp only
      split <;> simp

@[simp] theorem Jobs.sizes_zonesWritten (before : Settings) (j : Jobs) : (j.zonesWritten e before).sizes = j.sizes :=
  Jobs.sizes_leaveHeaters ..

@[simp] theorem Jobs.sizes_incumbents (j : Jobs) : (j.incumbents e).sizes = j.sizes :=
  (Jobs.Moves.refl (dry := false)).incumbents.sizes

@[simp] theorem Jobs.sizes_deliver (a : Nat) (j : Jobs) : (j.deliver e a).sizes = j.sizes := Jobs.sizes_tell ..

@[simp] theorem Jobs.sizes_unusable (h : HeadSettings) (j : Jobs) : (j.unusable h).sizes = j.sizes := Jobs.sizes_tell ..

/-- R36: a flag is set or cleared in place. -/
theorem Jobs.sizes_suspects (f : Bool → Bool) (i : Nat) (j : Jobs) :
    ({ j with suspects := updateAt f i j.suspects } : Jobs).sizes = j.sizes := by simp [Jobs.sizes]

@[simp] theorem Jobs.sizes_clearSuspect (a : Nat) (j : Jobs) : (j.clearSuspect a).sizes = j.sizes := by
  unfold Jobs.clearSuspect
  split
  · exact Jobs.sizes_suspects ..
  · rfl

@[simp] theorem Jobs.sizes_headReset (a : Nat) (h : HeadSettings) (j : Jobs) : (j.headReset a h).sizes = j.sizes :=
  Jobs.sizes_suspects ..

@[simp] theorem Jobs.sizes_cancelUnsent (i : Nat) (j : Jobs) : (j.cancelUnsent e i).sizes = j.sizes := by
  refine (Jobs.sizes_foldl _ (fun j x => ?_) _ _).trans rfl
  cases x <;> simp

@[simp] theorem Jobs.sizes_entryChanged (before : Settings) (i : Nat) (j : Jobs) :
    (j.entryChanged e before i).sizes = j.sizes := by
  have abandoned : ∀ k : Jobs, (k.abandon i).sizes = k.sizes := fun _ => rfl
  have claim : ∀ k : Jobs, (match before.pumpNumber i with
      | none => k
      | some n => if (k.claim (n - 1)).operator then
          (k.updateClaim (n - 1) (fun c => { c with operator := false })).startPass else k).sizes = k.sizes := by
    intro k
    split
    · rfl
    · split <;> simp
  have zone : ∀ (lost : Bool) (k : Jobs), (match (before.heaterZone i).or (e.set.heaterZone i) with
      | none => k
      | some z => k.updateZone z (Zone.entryMoved lost)).sizes = k.sizes := by
    intro lost k
    split <;> simp
  unfold Jobs.entryChanged
  dsimp only
  split
  · refine (Jobs.sizes_request ..).trans ((zone ..).trans ((claim _).trans ?_))
    simp [abandoned]
  · refine (zone ..).trans ((claim _).trans ?_)
    simp [abandoned]

@[simp] theorem Jobs.sizes_actuatorWritten (before : Settings) (i : Nat) (j : Jobs) :
    (j.actuatorWritten e before i).sizes = j.sizes := by
  unfold Jobs.actuatorWritten
  dsimp only
  split <;> simp

@[simp] theorem Jobs.sizes_guardWritten (before : Settings) (j : Jobs) : (j.guardWritten e before).sizes = j.sizes := by
  have flag : ∀ (k : HeadKind) (was now : Option Nat) (i : Jobs), (match e.set.knownKind k with
      | none => i
      | some a => if was.isSome && was != now then i.clearSuspect a else i).sizes = i.sizes := by
    intro k was now i
    split
    · rfl
    · split <;> simp
  unfold Jobs.guardWritten
  dsimp only
  split <;> exact (flag ..).trans (flag ..)

@[simp] theorem Jobs.sizes_zoneWritten (before : Settings) (i : Nat) (j : Jobs) :
    (j.zoneWritten e before i).sizes = j.sizes := by
  unfold Jobs.zoneWritten
  split
  · simp
  · dsimp only
    split <;> simp

end Sys2Proof.Machine
end

section
/-!
PROOFS. What a step consists of: every command is a path of moves, each a named effect of the blocks with all that it causes
or a change outside the blocks (`State.Path.effect`). An invariant of the step is then one statement about each move
(`step_induction`).
-/

namespace Sys2Proof.Machine

/-! ## The effects -/

/-- What a command itself does in the blocks that read time, settings and heads, before anything that it causes. -/
inductive Jobs.Effect (e : Env) (j : Jobs) : Jobs → Prop
  | raise (k : CondKind) : Jobs.Effect e j (j.raise e k)
  | clear (k : CondKind) : Jobs.Effect e j (j.clear e k)
  | acknowledge (k : CondKind) : Jobs.Effect e j (j.tele' (fun v t => t.acknowledge v k) e)
  | urgentSent : Jobs.Effect e j ((j.tele' (fun v t => t.urgentSent v) e).clear e .lineStalled)
  | openedSent : Jobs.Effect e j ((j.tele' (fun v t => t.openedSent v) e).clear e .lineStalled)
  | pulseExpiry : Jobs.Effect e j (j.tele' (fun _ t => t.pulseExpiry) e)
  | minimumExpiry (i : Nat) : Jobs.Effect e j (j.tele' (fun v t => t.minimumExpiry v i) e)
  | maximumExpiry (i : Nat) : Jobs.Effect e j (j.tele' (fun v t => t.maximumExpiry v i) e)
  | packHoldExpiry (c : RoutineCell) : Jobs.Effect e j (j.tele' (fun _ t => t.packHoldExpiry c) e)
  | issue {i : Nat} {a : Action} {o : Origin} (h : j.ready = some (i, a, o)) : Jobs.Effect e j (j.issue e i a o)
  | statusItem (i : Nat) (x : Slot) : Jobs.Effect e j (j.statusItem e i x)
  | ackItem (i : Nat) (x : Slot) : Jobs.Effect e j (j.ackItem e i x)
  | operatorItem (i : Nat) (x : OperatorItem) : Jobs.Effect e j (j.operatorItem e i x)
  | operatorFence : Jobs.Effect e j (j.operatorFence e)
  | ackTimeout (i : Nat) : Jobs.Effect e j (j.ackTimeout e i)
  | travelTimeout (i : Nat) : Jobs.Effect e j (j.travelTimeout e i)
  | restExpiry (i : Nat) : Jobs.Effect e j (j.restExpiry i)
  | holdExpiry (i : Nat) : Jobs.Effect e j (j.holdExpiry e i)
  | proveExpiry (n : Nat) : Jobs.Effect e j (j.proveExpiry e n)
  | dryExpiry (n : Nat) : Jobs.Effect e j (j.dryExpiry e n)
  | blindStartExpiry : Jobs.Effect e j (j.blindStartExpiry e)
  | heaterProveExpiry (z : Nat) : Jobs.Effect e j (j.heaterProveExpiry e z)
  | splitExpiry : Jobs.Effect e j (j.splitExpiry e)
  | clearFault (i : Nat) : Jobs.Effect e j (j.clearFault e i)
  | takeStore (r : Request) : Jobs.Effect e j (j.takeStore e.set r)
  | releaseTrip : Jobs.Effect e j (j.releaseTrip e).1

/-- R84: a valid TIME item at the Tariff clock. -/
def clockItem (t : TimeOfWeek) (p : Part) : Part :=
  (p.1.setTime t,
    (((p.2.countJump p.1.clock t).clockTaken (p.1.setTime t)).tariffChange p.1 (p.1.setTime t)).post .fillEval)

/-- The same with the effects that move the time, the settings or a head. -/
inductive Part.Effect (p : Part) : Part → Prop
  | jobs {j : Jobs} (h : Jobs.Effect p.1 p.2 j) : Part.Effect p (p.1, j)
  | tick : Part.Effect p (tick p)
  | idle : Part.Effect p p
  | clockItem (t : TimeOfWeek) : Part.Effect p (clockItem t p)
  | clockStaleExpiry : Part.Effect p (clockStaleExpiry p)
  | heard (bs : List Byte) : Part.Effect p (heard bs p)
  | takeItem (a : Nat) (x : SampleItem) : Part.Effect p (takeItem a x p)
  | staleExpiry (a : Nat) : Part.Effect p (staleExpiry a p)
  | write {t : Table} {i g : Nat} {d : List Byte} {new : Settings} (h : writeTable p.1.set t i g d = some new) :
      Part.Effect p (takeWrite t i g new p)

/-- One move of the whole part: an effect with all that it causes, a settling of what an earlier command left (log 2), a
restart, or a change of the Loop interface's own fields, of the counters, of the settings store or of the lock. -/
inductive State.Move (s : State) : State → Prop
  | change (f : Part → Part) (h : Part.Effect s.part (f s.part)) : State.Move s (s.change f)
  | settled : State.Move s s.settled
  | restart (set : Settings) (h : set = s.env.set ∨ set ∈ s.jobs.store.image) : State.Move s (s.restart set)
  | loop (l : Loop) : State.Move s { s with loop := l }
  | count (f : Counters → Counters) : State.Move s (s.tally (Jobs.count f))
  | store (f : Jobs → Store → Store) (h : Store.Draws s.env.set s.jobs.store (f s.jobs s.jobs.store)) :
      State.Move s (s.tally fun j => j.stored (f j))
  | lock (b : Bool) : State.Move s (s.setLock b)

/-- One move after another. -/
abbrev State.Path : State → State → Prop := Relation.ReflTransGen State.Move

variable {s0 s : State}

/-! ## Paths of moves -/

theorem State.Path.work (h : State.Path s0 s) {f : Env → Jobs → Jobs} (hf : Jobs.Effect s.env s.jobs (f s.env s.jobs)) :
    State.Path s0 (s.work f) :=
  h.tail (.change (fun p => (p.1, f p.1 p.2)) (.jobs hf))

theorem State.Path.change (h : State.Path s0 s) {f : Part → Part} (hf : Part.Effect s.part (f s.part)) :
    State.Path s0 (s.change f) := h.tail (.change f hf)

theorem State.Path.loop (h : State.Path s0 s) (l : Loop) : State.Path s0 { s with loop := l } := h.tail (.loop l)

theorem State.Path.count (h : State.Path s0 s) (f : Counters → Counters) : State.Path s0 (s.tally (Jobs.count f)) :=
  h.tail (.count f)

theorem State.Path.lock (h : State.Path s0 s) (b : Bool) : State.Path s0 (s.setLock b) := h.tail (.lock b)

theorem State.Path.countBad (h : State.Path s0 s) (p : Port) : State.Path s0 (s.tally (Jobs.countBad p)) := by
  cases p with
  | field => exact h.count fun c => { c with bad3F := c.bad3F + 1#32 }
  | line => exact h.count fun c => { c with bad4L := c.bad4L + 1#32 }

/-- A fold of steps. -/
theorem State.Path.foldl {β : Type} (f : State → β → State) (l : List β)
    (hf : ∀ {s : State} (b : β), State.Path s0 s → State.Path s0 (f s b)) (h : State.Path s0 s) :
    State.Path s0 (l.foldl f s) := by
  induction l generalizing s with
  | nil => exact h
  | cons b l ih => exact ih (hf b h)

theorem State.Path.offer (h : State.Path s0 s) (p : Port) (bs : List Byte) : State.Path s0 (s.offer p bs) := by
  have lost : ∀ (l : Loop) (b : Bool), State.Path s0 { s with loop := l, jobs := s.jobs.countDisplaced b } := by
    intro l b
    cases b with
    | false => exact h.loop l
    | true => exact (h.loop l).count fun c => { c with displaced7 := c.displaced7 + 1#32 }
  cases p <;> exact lost _ _

/-! ## Requests (spec/11) -/

theorem State.Path.answer (h : State.Path s0 s) (r : Request) (res : Result) (d : List Byte) :
    State.Path s0 (s.answer r res d) := h.offer ..

theorem State.Path.recall (h : State.Path s0 s) (r : Request) : State.Path s0 (s.recall r) := by
  unfold State.recall
  split
  · next image _ hi => exact h.tail (.restart image (.inr hi))
  · exact h.answer ..

/-- R176: the settings that a WRITE_ENTRY leaves are those of its table's write. -/
theorem Request.write_eq_some {set new : Settings} {r : Request} {t : Table} (ht : tableOf r.id = some t)
    (hw : r.write set = some new) : writeTable set t r.index r.group r.bytes = some new := by
  unfold Request.write at hw
  split at hw
  · cases hw
  · rw [ht] at hw
    exact hw

theorem State.Path.carryOut (h : State.Path s0 s) (r : Request) : State.Path s0 (s.carryOut r) := by
  unfold State.carryOut
  split
  · exact h.answer ..
  · split
    · next t new ht hw => exact (h.change (f := takeWrite t r.index r.group new) (.write (r.write_eq_some ht hw))).answer ..
    · exact h
  · exact h.answer ..
  · split
    · next k _ => exact (h.work (f := fun e j => j.tele' (fun v t => t.acknowledge v k) e) (.acknowledge k)).answer ..
    · exact h
  · exact (h.work (.clearFault _)).answer ..
  · exact h.work (.takeStore r)
  · exact h.recall r
  · exact h.tail (.restart _ (.inl rfl))
  · exact (h.lock true).answer ..
  · exact (h.lock false).answer ..
  · exact (h.work .releaseTrip).answer ..
  · exact h

theorem State.Path.manage (h : State.Path s0 s) (p : Port) (bs : List Byte) : State.Path s0 (s.manage p bs) := by
  unfold State.manage
  split
  · exact h.count _
  · split
    · exact h.answer ..
    · exact h.carryOut _

/-! ## Arrivals (spec/01) -/

theorem State.Path.forwardUp (h : State.Path s0 s) (bs : List Byte) : State.Path s0 (s.forwardUp bs) := by
  unfold State.forwardUp
  split
  · exact h.offer ..
  · exact h

theorem State.Path.takeSample (h : State.Path s0 s) (bs : List Byte) : State.Path s0 (s.takeSample bs) := by
  unfold State.takeSample
  split
  · exact .foldl _ _ (fun x hs => hs.change (.takeItem _ x)) h
  · exact h.countBad .field

theorem State.Path.takeStatus (h : State.Path s0 s) (bs : List Byte) : State.Path s0 (s.takeStatus bs) := by
  unfold State.takeStatus
  split
  · exact .foldl _ _ (fun x hs => hs.work (.statusItem _ x)) h
  · exact h

theorem State.Path.takeAck (h : State.Path s0 s) (bs : List Byte) : State.Path s0 (s.takeAck bs) := by
  unfold State.takeAck
  split
  · exact .foldl _ _ (fun x hs => hs.work (.ackItem _ x)) h
  · exact h.countBad .field

theorem State.Path.classifyField (h : State.Path s0 s) (bs : List Byte) : State.Path s0 (s.classifyField bs) := by
  unfold State.classifyField
  dsimp only
  split
  · exact (h.takeSample bs).forwardUp bs
  · split
    · exact (h.takeStatus bs).forwardUp bs
    · split
      · split
        · exact h.takeAck bs
        · split
          · exact h.manage ..
          · exact h.countBad .field
      · split
        · exact h
        · exact h.offer ..

theorem State.Path.takeClock (h : State.Path s0 s) (bs : List Byte) : State.Path s0 (s.takeClock bs) := by
  unfold State.takeClock
  split
  · exact h.countBad .line
  · next t _ => exact h.change (f := clockItem t) (.clockItem t)

theorem State.Path.takeCommand (h : State.Path s0 s) (i : Nat) (bs : List Byte) : State.Path s0 (s.takeCommand i bs) :=
  .foldl _ _ (fun x hs => hs.work (.operatorItem i x)) h

theorem State.Path.takeCredit (h : State.Path s0 s) (bs : List Byte) : State.Path s0 (s.takeCredit bs) := by
  unfold State.takeCredit
  split
  · exact h.loop _
  · exact h.countBad .line

theorem State.Path.classifyLine (h : State.Path s0 s) (bs : List Byte) : State.Path s0 (s.classifyLine bs) := by
  unfold State.classifyLine
  dsimp only
  split
  · split
    · exact h.takeCommand ..
    · exact h
  · split
    · exact h.count _
    · split
      · exact h.work .operatorFence
      · split
        · exact (h.takeClock bs).offer ..
        · split
          · exact h.takeClock bs
          · split
            · exact h.takeCredit bs
            · split
              · exact h.manage ..
              · split
                · exact h.countBad .line
                · split
                  · exact h
                  · exact h.offer ..

theorem State.Path.goodArrival (h : State.Path s0 s) (p : Port) : State.Path s0 (s.goodArrival p) := by
  cases p with
  | line => exact h.count _
  | field => exact ((h.loop _).count _).work (f := fun e j => j.clear e .loopNoise) (.clear _)

theorem State.Path.badArrival (h : State.Path s0 s) (p : Port) : State.Path s0 (s.badArrival p) := by
  cases p with
  | line => exact h.countBad .line
  | field =>
    unfold State.badArrival
    dsimp only
    split
    · exact ((h.countBad .field).loop _).work (f := fun e j => j.raise e .loopNoise) (.raise _)
    · exact (h.countBad .field).loop _

theorem State.Path.arrive (h : State.Path s0 s) (p : Port) (bs : List Byte) : State.Path s0 (s.arrive p bs) := by
  unfold State.arrive
  split
  · cases p with
    | field => exact ((h.goodArrival .field).change (.heard bs)).classifyField bs
    | line => exact (h.goodArrival .line).classifyLine bs
  · exact h.badArrival p

/-! ## Sends (spec/01) -/

theorem State.Path.sendReport (h : State.Path s0 s) : State.Path s0 s.sendReport :=
  ((h.loop _).loop _).work (f := fun e j => (j.tele' (fun v t => t.openedSent v) e).clear e .lineStalled) .openedSent

theorem State.Path.sendForwarded (h : State.Path s0 s) (bs : List Byte) (rest : List (List Byte)) :
    State.Path s0 (s.sendForwarded bs rest) :=
  (((h.loop _).count _).loop _).work (f := fun e j => (j.tele' (fun _ t => t) e).clear e .lineStalled) (.clear _)

theorem State.Path.sendUrgent (h : State.Path s0 s) : State.Path s0 s.sendUrgent :=
  ((h.loop _).loop _).work (f := fun e j => (j.tele' (fun v t => t.urgentSent v) e).clear e .lineStalled) .urgentSent

theorem State.Path.lineArbiter (h : State.Path s0 s) : State.Path s0 s.lineArbiter := by
  unfold State.lineArbiter
  split
  · split
    · exact h.sendUrgent
    · unfold State.sendRoutine
      split
      · split
        · exact h.sendReport
        · exact h.sendForwarded ..
      · exact h.sendReport
  · exact h

theorem State.Path.fieldArbiter (h : State.Path s0 s) : State.Path s0 s.fieldArbiter := by
  unfold State.fieldArbiter
  split
  · exact h
  · split
    · next i a o hr => exact (h.loop _).work (f := fun e j => j.issue e i a o) (.issue hr)
    · split
      · exact (h.loop _).count _
      · exact h

/-! ## The other commands -/

theorem State.Path.storeCompletes (h : State.Path s0 s) : State.Path s0 s.storeCompletes := by
  have answered : State.Path s0 s.answerStore := by
    unfold State.answerStore
    split
    · exact h
    · exact h.offer ..
  unfold State.storeCompletes
  split
  · exact ((answered.count _).work (f := fun e j => j.clear e .settingsLost) (.clear _)).tail
      (.store (fun j => Store.completed j.guard.latch) (Store.draws_completed _ _ _))
  · exact h

theorem State.Path.creditWaitExpiry (h : State.Path s0 s) : State.Path s0 s.creditWaitExpiry := by
  unfold State.creditWaitExpiry
  split
  · exact (h.loop _).work (f := fun e j => j.raise e .lineStalled) (.raise _)
  · exact h

/-- What waits for the settings store begins, when it may. -/
theorem State.Path.beginNext (h : State.Path s0 s) (waits : Bool) :
    State.Path s0 (if waits then s.tally (fun j => j.stored (Store.beginNext s.env.set j.guard.latch)) else s) := by
  split
  · exact h.tail (.store (fun j => Store.beginNext s.env.set j.guard.latch) (Store.draws_beginNext _ _ _))
  · exact h

/-- Every effect of a command is a path of moves. -/
theorem State.Path.effect (h : State.Path s0 s) (c : Instr) : State.Path s0 (effectOf c s) := by
  cases c
  case powerOn | powerLoss => exact h
  case deferredStoreBegin => exact h.beginNext s.jobs.store.waiting
  case latchWordWriteDeferred => exact h.beginNext s.jobs.store.writeAsked
  case latchWordWriteCompletion =>
    exact h.tail (.store (fun j => Store.wordWritten s.env.set j.guard.latch) (Store.draws_wordWritten _ _ _))
  case storeCompletion => exact h.storeCompletes
  case transmitCompletion p => cases p <;> exact h.loop _
  case lPortSendBegin => exact h.lineArbiter
  case fPortSendBegin => exact h.fieldArbiter
  case secondTick => exact h.change .tick
  case minuteBoundary =>
    refine h.change (f := minuteTick) ?_
    unfold minuteTick
    split
    · exact .tick
    · exact .idle
  case creditWaitExpiry => exact h.creditWaitExpiry
  case staleTimerExpiry a => exact h.change (.staleExpiry a)
  case splitTimerExpiry => exact h.work .splitExpiry
  case restTimerExpiry i => exact h.work (.restExpiry i)
  case ackTimeoutExpiry i => exact h.work (.ackTimeout i)
  case valveTravelExpiry i => exact h.work (.travelTimeout i)
  case holdTimerExpiry i => exact h.work (.holdExpiry i)
  case clockStaleExpiry => exact h.change .clockStaleExpiry
  case proveTimerExpiry n => exact h.work (.proveExpiry n)
  case dryTimerExpiry n => exact h.work (.dryExpiry n)
  case blindStartTimerExpiry => exact h.work .blindStartExpiry
  case heaterProveTimerExpiry z => exact h.work (.heaterProveExpiry z)
  case pulseTimerExpiry => exact h.work .pulseExpiry
  case minimumTimerExpiry i => exact h.work (.minimumExpiry i)
  case maximumTimerExpiry i => exact h.work (.maximumExpiry i)
  case packHoldExpiry c => exact h.work (.packHoldExpiry c)
  all_goals exact h.arrive ..

/-- A property of the whole part that power-on, the loss of power and every move keep, every step keeps. -/
theorem step_induction {P : State → Prop} (idle : ∀ s l, P s → P { s with pending := l })
    (up : ∀ s, P s → P s.powerUp) (down : ∀ s, P s → P s.powerDown) (move : ∀ {s t}, State.Move s t → P s → P t)
    {s t : State} (h : step s = .next t) (hs : P s) : P t := by
  have path : ∀ {s t}, State.Path s t → P s → P t := fun hp hs => by
    induction hp with
    | refl => exact hs
    | tail _ hm ih => exact move hm ih
  have command : ∀ {c : Instr} {s}, exec c s = .next t → P s → P t := by
    intro c s h hs
    rw [exec_eq] at h
    cases h
    split
    · exact up s hs
    · split
      · exact down s hs
      · unfold State.powerCommand
        split
        · exact path ((State.Path.effect (.single (.settled (s := s))) c).loop _) hs
        · exact hs
  unfold step at h
  split at h
  · cases h; exact hs
  · exact command h (idle s _ hs)

end Sys2Proof.Machine
end

section
/-!
PROOFS. Every move keeps every table at its size (R22, R52, R60, R85, R97, R121, R138, R148, R159).
-/

namespace Sys2Proof.Machine

variable {e : Env} {j j' : Jobs} {p q : Part} {s t : State}

/-! ## Settings (R176) -/

/-- The sizes of the tables of the settings. -/
def Settings.sizes (s : Settings) : List Nat :=
  [s.heads.length, s.actuators.length, s.tariff.length, s.points.length, s.zones.length, s.policy.length,
    s.alerts.enables.length]

theorem Settings.shaped_iff (s : Settings) : s.Shaped ↔ s.sizes = [47, 12, 16, 12, 4, 24, 9] := by
  simp [Settings.Shaped, Settings.sizes]

/-- A group that is taken leaves the sizes which its settings have. -/
theorem taken_sizes {set s' new : Settings} {ok : Bool} (h : taken ok s' = some new)
    (hs : s'.sizes = set.sizes := by simp [Settings.sizes]) : new.sizes = set.sizes := by
  obtain ⟨-, rfl⟩ := taken_eq_some h
  exact hs

/-- R176: a write changes entries in place. -/
theorem writeTable_sizes {set new : Settings} {t : Table} {i g : Nat} {d : List Byte}
    (hw : writeTable set t i g d = some new) : new.sizes = set.sizes := by
  unfold writeTable at hw
  cases t with
  | general =>
    dsimp only [writeGeneral] at hw
    split at hw <;> exact taken_sizes hw
  | heads =>
    dsimp only [writeHead] at hw
    split at hw
    · split at hw
      · exact taken_sizes hw
      · cases hw
    · exact taken_sizes hw
  | actuators =>
    dsimp only [writeActuator] at hw
    split at hw
    · exact taken_sizes hw
    · cases hw
  | tariff =>
    dsimp only [writeTariff] at hw
    split at hw
    · split at hw
      · exact taken_sizes hw
      · cases hw
    · exact taken_sizes hw
  | strapping =>
    dsimp only [writeStrapping] at hw
    split at hw
    · exact taken_sizes hw
    · exact taken_sizes hw
  | guard =>
    dsimp only [writeGuard] at hw
    split at hw
    · exact taken_sizes hw
    · split at hw
      · exact taken_sizes hw
      · cases hw
  | zones =>
    dsimp only [writeShared, writeZone] at hw
    split at hw
    · split at hw
      · split at hw
        · exact taken_sizes hw
        · cases hw
      · exact taken_sizes hw
    · split at hw
      · split at hw
        · exact taken_sizes hw
        · cases hw
      · exact taken_sizes hw
      · exact taken_sizes hw
  | allotment => exact taken_sizes hw
  | policy =>
    dsimp only [writePolicy] at hw
    split at hw <;> exact taken_sizes hw
  | conditions =>
    dsimp only [writeConditions] at hw
    split at hw
    · split at hw
      · exact taken_sizes hw
      · cases hw
    · split at hw
      · exact taken_sizes hw
      · cases hw

/-! ## What an effect keeps -/

/-- R72, R177: an effect keeps the bounds of the In-Flight Table, and stores no settings but those in force. -/
theorem Jobs.Effect.kept (h : Jobs.Effect e j j') : Jobs.Kept e.set j j' := by
  have h0 := Jobs.Kept.refl e.set j
  cases h with
  | raise | clear | acknowledge | urgentSent | openedSent | pulseExpiry | minimumExpiry | maximumExpiry
    | packHoldExpiry => exact h0.same
  | issue h => exact Jobs.kept_issue h
  | statusItem => exact h0.statusItem ..
  | ackItem => exact h0.ackItem ..
  | operatorItem => exact h0.operatorItem ..
  | operatorFence => exact h0.operatorFence
  | ackTimeout => exact h0.ackTimeout _
  | travelTimeout => exact h0.travelTimeout _
  | restExpiry => exact h0.restExpiry _
  | holdExpiry => exact h0.moves (Jobs.Moves.refl.endHold ..)
  | proveExpiry => exact h0.proveExpiry _
  | dryExpiry => exact h0.dryExpiry _
  | blindStartExpiry => exact h0.blindStartExpiry
  | heaterProveExpiry => exact h0.heaterProveExpiry _
  | splitExpiry => exact h0.splitExpiry
  | clearFault => exact h0.clearFault _
  | takeStore r => exact h0.takeStore r
  | releaseTrip => exact h0.releaseTrip

theorem Jobs.Effect.sizes (h : Jobs.Effect e j j') : j'.sizes = j.sizes := by
  cases h with
  | urgentSent => exact (Jobs.sizes_clear ..).trans (Jobs.sizes_tele' Tele.sizes_urgentSent ..)
  | openedSent => exact (Jobs.sizes_clear ..).trans (Jobs.sizes_tele' Tele.sizes_openedSent ..)
  | acknowledge => exact Jobs.sizes_tele' (fun _ => Tele.sizes_acknowledge _ _) ..
  | pulseExpiry => exact Jobs.sizes_tele' (fun _ => Tele.sizes_pulseExpiry) ..
  | minimumExpiry => exact Jobs.sizes_tele' (fun _ => Tele.sizes_minimumExpiry _ _) ..
  | maximumExpiry => exact Jobs.sizes_tele' (fun _ => Tele.sizes_maximumExpiry _ _) ..
  | packHoldExpiry => exact Jobs.sizes_tele' (fun _ => Tele.sizes_packHoldExpiry _) ..
  | holdExpiry => exact Jobs.sizes_endHold ..
  | takeStore r => rfl
  | _ => simp

theorem headWritten_part (a : Nat) (old : HeadSettings) (p : Part) :
    (headWritten a old p).1.heads.length = p.1.heads.length ∧ (headWritten a old p).2.sizes = p.2.sizes := by
  unfold headWritten
  dsimp only
  split
  · exact ⟨rfl, rfl⟩
  · simp [enableHead]
  · simp [disableHead]
  · split
    · simp [enableHead, disableHead]
    · split <;> simp

theorem ownerTold_part (t : Table) (i g : Nat) (before : Settings) (p : Part) :
    (ownerTold t i g before p).1.heads.length = p.1.heads.length ∧ (ownerTold t i g before p).2.sizes = p.2.sizes := by
  unfold ownerTold
  dsimp only
  split
  · split
    · exact ⟨rfl, rfl⟩
    · split <;> exact ⟨rfl, rfl⟩
  · obtain ⟨hheads, hsizes⟩ := headWritten_part i (before.head i) p
    refine ⟨hheads, ?_⟩
    unfold tellHeads
    dsimp only
    split <;> simp [hsizes]
  · exact ⟨rfl, Jobs.sizes_actuatorWritten ..⟩
  · exact ⟨rfl, Jobs.sizes_tariffChange ..⟩
  · split <;> exact ⟨rfl, rfl⟩
  · exact ⟨rfl, Jobs.sizes_guardWritten ..⟩
  · exact ⟨rfl, Jobs.sizes_zoneWritten ..⟩
  · exact ⟨rfl, Jobs.sizes_tariffChange ..⟩
  · exact ⟨rfl, Jobs.sizes_tele' (fun v t => Tele.sizes_policyWritten v _ _ t) p.1 p.2⟩
  · exact ⟨rfl, Jobs.sizes_tele' (fun v t => Tele.sizes_alertsWritten v _ t) p.1 p.2⟩

/-- What an effect keeps of the sizes: those of the settings, of the head records and of the tables that the blocks write;
and the settings store draws on the settings in force alone. -/
structure Part.KeepsSizes (p q : Part) : Prop where
  set : q.1.set.sizes = p.1.set.sizes
  heads : q.1.heads.length = p.1.heads.length
  jobs : q.2.sizes = p.2.sizes
  stored : Jobs.Kept p.1.set p.2 q.2

/-- An effect that leaves the settings in force. -/
theorem Part.KeepsSizes.of_kept (hk : Part.Kept p.1.set p q) (hh : q.1.heads.length = p.1.heads.length)
    (hj : q.2.sizes = p.2.sizes) : Part.KeepsSizes p q := ⟨congrArg _ hk.set, hh, hj, hk.jobs⟩

theorem tick_sizes (p : Part) : (tick p).1.heads.length = p.1.heads.length ∧ (tick p).2.sizes = p.2.sizes := by
  unfold tick
  dsimp only
  split
  · exact ⟨rfl, by simp⟩
  · exact ⟨rfl, by simp⟩

theorem clockItem_sizes (t : TimeOfWeek) (p : Part) : (clockItem t p).2.sizes = p.2.sizes := by
  simp [clockItem, Jobs.clockTaken]

theorem clockStaleExpiry_sizes (p : Part) :
    (clockStaleExpiry p).1.heads.length = p.1.heads.length ∧ (clockStaleExpiry p).2.sizes = p.2.sizes := by
  unfold clockStaleExpiry
  split
  · exact ⟨rfl, by simp⟩
  · exact ⟨rfl, rfl⟩

theorem heard_sizes (bs : List Byte) (p : Part) : (heard bs p).2.sizes = p.2.sizes := by
  unfold heard
  dsimp only
  split
  · dsimp only
    split <;> simp
  · rfl

theorem takeItem_sizes (a : Nat) (x : SampleItem) (p : Part) : (takeItem a x p).2.sizes = p.2.sizes := by
  unfold takeItem
  split
  · rfl
  · unfold takeValue
    dsimp only
    split <;> simp
  · simp [takeFault]

theorem staleExpiry_sizes (a : Nat) (p : Part) :
    (staleExpiry a p).1.heads.length = p.1.heads.length ∧ (staleExpiry a p).2.sizes = p.2.sizes := by
  unfold staleExpiry
  split
  · dsimp only
    split <;> simp
  · exact ⟨rfl, rfl⟩

theorem Part.Effect.keepsSizes (h : Part.Effect p q) : Part.KeepsSizes p q := by
  cases h with
  | jobs h => exact ⟨rfl, rfl, h.sizes, h.kept⟩
  | idle => exact ⟨rfl, rfl, rfl, .refl ..⟩
  | tick => exact .of_kept (Part.kept_tick p) (tick_sizes p).1 (tick_sizes p).2
  | clockItem t =>
    exact ⟨rfl, rfl, clockItem_sizes t p,
      ((((Jobs.Kept.refl ..).countJump ..).same (j' := Jobs.clockTaken ..)).tariffChange ..).same⟩
  | clockStaleExpiry =>
    exact .of_kept (Part.kept_clockStaleExpiry p) (clockStaleExpiry_sizes p).1 (clockStaleExpiry_sizes p).2
  | heard bs => exact .of_kept (Part.kept_heard bs p) (heard_frame bs p).heads (heard_sizes bs p)
  | takeItem a x => exact .of_kept (Part.kept_takeItem a x p) (takeItem_frame a x p).heads (takeItem_sizes a x p)
  | staleExpiry a => exact .of_kept (Part.kept_staleExpiry a p) (staleExpiry_sizes a p).1 (staleExpiry_sizes a p).2
  | @write t i g d new hw =>
    obtain ⟨hheads, hsizes⟩ := ownerTold_part t i g p.1.set ({ p.1 with set := new }, p.2)
    have hk := Part.kept_ownerTold (live := p.1.set) t i g p.1.set ({ p.1 with set := new }, p.2)
    exact ⟨(congrArg _ hk.set).trans (writeTable_sizes hw), hheads, hsizes, hk.jobs⟩

/-! ## The whole part -/

/-- R22 and the rest, by the sizes of the four groups of tables. -/
theorem State.shaped_iff (s : State) : s.Shaped ↔ s.env.set.Shaped ∧ s.env.heads.length = 47
    ∧ s.jobs.sizes = ([47, 12, 2, 4, 6], 22, 24) ∧ ∀ x, s.jobs.Holds x → x.Shaped := by
  simp only [State.Shaped, Jobs.sizes, Tele.sizes, Jobs.Holds, Prod.mk.injEq, List.cons.injEq, or_imp, forall_and]
  tauto

/-- Tables of the right sizes, with settings drawn from those in force, stored and being stored. -/
theorem State.Shaped.of_sizes (h : s.Shaped) (hset : t.env.set.Shaped) (hheads : t.env.heads.length = 47)
    (hsizes : t.jobs.sizes = ([47, 12, 2, 4, 6], 22, 24)) (hstored : Jobs.Kept s.env.set s.jobs t.jobs) : t.Shaped := by
  obtain ⟨hlive, -, -, hall⟩ := s.shaped_iff.mp h
  refine t.shaped_iff.mpr ⟨hset, hheads, hsizes, fun x hx => ?_⟩
  exact (hstored.stored x hx).elim (fun he => he ▸ hlive) (hall x)

theorem headsAtReset_length (e : Env) (keep : Bool) : (headsAtReset e keep).length = 47 := by
  unfold headsAtReset
  rw [List.length_map]
  exact List.length_range

@[simp] theorem Jobs.sizes_resetTaken (e : Env) (j : Jobs) : (j.resetTaken e).sizes = j.sizes := by
  have first : ∀ k : Jobs, k.firstEvaluations.sizes = k.sizes := fun _ => rfl
  unfold Jobs.resetTaken
  rw [(Jobs.moves_settle e _).sizes, first, Jobs.sizes_tele' Tele.sizes_allDue]
  exact Jobs.sizes_request ..

theorem Jobs.tele'_sizes (f : TeleEnv → Tele → Tele) (e : Env) (j : Jobs) :
    (j.tele' f e).sizes = (j.sizes.1, (f (teleEnv e j) j.tele).sizes) := rfl

theorem Jobs.sizes_restarted (e : Env) (j : Jobs) : (j.restarted e).sizes.1 = [47, 12, 2, 4, 6] := by
  simp [Jobs.sizes, Jobs.restarted, Frost.restart, Config.actuatorCount]

/-- R178: a restart sets every table up again, with settings in force or stored. -/
theorem State.Shaped.restart (h : s.Shaped) {set : Settings} (hset : set = s.env.set ∨ set ∈ s.jobs.store.image) :
    (s.restart set).Shaped := by
  obtain ⟨hlive, -, -, hall⟩ := s.shaped_iff.mp h
  have shape : set.Shaped := hset.elim (fun he => he ▸ hlive) (fun hi => hall set (.inl hi))
  refine h.of_sizes shape (headsAtReset_length ..) ?_ ?_
  · unfold State.restart
    simp [Jobs.tele'_sizes, Jobs.sizes_restarted]
  · have h0 : Jobs.Kept s.env.set s.jobs (s.jobs.restarted (s.env.restarted set)) :=
      ⟨fun _ => ⟨Nat.zero_le _, List.nodup_nil⟩, fun _ => .inr⟩
    unfold State.restart
    exact ((((h0.same (j' := Jobs.tele' ..)).raiseWhen ..).raiseWhen ..).tariffChange ..).trans (Jobs.kept_resetTaken ..)

/-- R179: power-on sets every table up, with the settings stored or those of the factory. -/
theorem State.Shaped.powerUp (h : s.Shaped) : s.powerUp.Shaped := by
  obtain ⟨-, -, -, hall⟩ := s.shaped_iff.mp h
  have shape : s.jobs.store.survive.loaded.Shaped := by
    unfold Store.loaded
    split
    · next image hi =>
      split
      · exact hall image (.inl hi)
      · decide
    · decide
  refine h.of_sizes shape (headsAtReset_length ..) ?_ ?_
  · unfold State.powerUp
    simp only [State.creditWatch_jobs, Jobs.sizes_resetTaken, Jobs.sizes_raiseWhen, Jobs.sizes_raise]
    rfl
  · have h0 : Jobs.Kept s.env.set s.jobs (Jobs.atPowerOn (Env.atPowerOn s.jobs.store.survive.loaded) s.jobs.store.survive
        s.jobs.choices) :=
      ⟨fun _ => ⟨Nat.zero_le _, List.nodup_nil⟩, fun x hx => .inr (hx.elim .inl nofun)⟩
    exact (((h0.same (j' := Jobs.raise ..)).raiseWhen ..).raiseWhen ..).trans (Jobs.kept_resetTaken ..)

theorem State.Shaped.powerDown (h : s.Shaped) : s.powerDown.Shaped := by
  refine h.of_sizes (show Settings.factory.Shaped by decide) rfl rfl ?_
  exact ⟨fun _ => ⟨Nat.zero_le _, List.nodup_nil⟩, fun x hx => .inr (hx.elim .inl nofun)⟩

theorem State.Move.shaped (hm : State.Move s t) (h : s.Shaped) : t.Shaped := by
  obtain ⟨hset, hheads, hsizes, -⟩ := s.shaped_iff.mp h
  have h0 := Jobs.Kept.refl s.env.set s.jobs
  cases hm with
  | change f hf =>
    obtain ⟨kset, kheads, ksizes, kstored⟩ := hf.keepsSizes
    have shape : (f s.part).1.set.Shaped := (Settings.shaped_iff _).mpr (kset.trans ((Settings.shaped_iff _).mp hset))
    exact h.of_sizes shape (kheads.trans hheads) ((Jobs.moves_complete ..).sizes.trans (ksizes.trans hsizes))
      (kstored.moves (Jobs.moves_complete ..))
  | settled => exact h.of_sizes hset hheads ((Jobs.moves_settle ..).sizes.trans hsizes) (h0.moves (Jobs.moves_settle ..))
  | restart set hs => exact h.restart hs
  | loop => exact h
  | count => exact h
  | store f hf => exact h.of_sizes hset hheads hsizes (h0.ofDraws _ hf)
  | lock => exact h

end Sys2Proof.Machine

open Sys2Proof Sys2Proof.Machine

/-- Settles O10: every move of which a step consists keeps the sizes of the tables (`State.Move.shaped`). -/
theorem stepKeepsTableSizes : Obligations.StepKeepsTableSizes := fun _ _ hs h =>
  step_induction (P := State.Shaped) (fun _ _ => id) (fun _ => State.Shaped.powerUp) (fun _ => State.Shaped.powerDown)
    State.Move.shaped h hs
end

section
/-!
PROOFS. The expiry of a stale timer (spec/02 R30, R31).
-/

namespace Sys2Proof.Machine

variable {a : Nat} {p : Part} {s : State}

/-- A change of a settled part that does nothing causes nothing. -/
theorem State.change_idle {f : Part → Part} (hs : s.Settled) (hf : f s.part = s.part) : s.change f = s := by
  obtain ⟨hw, hb, -⟩ := id hs
  unfold State.change Part.change
  rw [hf]
  exact State.work_quiet (f := fun _ j => j) hs rfl rfl hw hb rfl rfl

/-- Log 3: without a running timer there is no expiry. -/
theorem staleExpiry_stopped (h : (p.1.head a).stale = none) : staleExpiry a p = p := by
  unfold staleExpiry
  rw [h]
  rfl

/-- R30, R31: the expiry of a known head's running timer. -/
theorem staleExpiry_running (hr : (p.1.head a).stale ≠ none) (hk : p.1.set.known a = true) :
    staleExpiry a p =
      let e := p.1.updateHead a (fun r => { r with state := .stale, stale := none })
      let j := p.2.unusable (p.1.set.head a)
      (e, if (p.1.set.head a).kind = .service then j else j.headStaleTest e) := by
  unfold staleExpiry
  rw [if_pos (by simp [Option.isSome_iff_ne_none, hr, hk])]

theorem exec_staleExpiry (a : Nat) (h : s.powered = true) :
    exec (.staleTimerExpiry a) s = .next (s.settled.change (staleExpiry a)).creditWatch :=
  exec_powered h (by simp) (by simp)

/-- R30: what the expiry leaves of its head's record. -/
theorem head_stale {e : Env} (hk : e.set.known a = true) (hl : e.heads.length = e.set.heads.length) :
    (e.updateHead a (fun r => { r with state := .stale, stale := none })).head a
      = { e.head a with state := .stale, stale := none } := by
  obtain ⟨h0, hb⟩ := Settings.known_bounds hk
  exact Env.head_updateHead_self _ h0 (hl ▸ hb)

/-- R31: a known head that is STALE and no SERVICE head makes the test of HEAD_STALE hold. -/
theorem Env.anyStale_of_head {e : Env} (hk : e.set.known a = true) (hl : e.set.heads.length = 47)
    (hs : (e.set.head a).kind ≠ .service) (hst : (e.head a).state = .stale) : e.anyStale = true := by
  obtain ⟨h0, hb⟩ := Settings.known_bounds hk
  refine List.any_eq_true.mpr ⟨a - 1, List.mem_range.mpr (hb.trans_eq hl), ?_⟩
  simp [Nat.sub_add_cancel (Nat.pos_of_ne_zero h0), hk, hs, hst]

/-- The expiry writes nothing of what the other commands write. -/
theorem hull_staleExpiry (a : Nat) (p : Part) : (staleExpiry a p).2.hull = p.2.hull := by
  unfold staleExpiry Jobs.headStaleTest Jobs.keep
  split
  · dsimp only
    split
    · rfl
    · split <;> rfl
  · rfl

/-- A kind that belongs to commands alone stays as the command left it. -/
theorem State.active_change (f : Part → Part) {k : CondKind} (hk : k.inside = false) (s : State) :
    (s.change f).jobs.active k = (f s.part).2.active k :=
  congrArg Prod.fst ((Jobs.moves_complete ..).flags hk)

/-- R31: at the expiry of a head that is no SERVICE head, HEAD_STALE stands. -/
theorem staleExpiry_active (hr : (p.1.head a).stale ≠ none) (hk : p.1.set.known a = true)
    (hset : p.1.set.heads.length = 47) (hheads : p.1.heads.length = 47) (hs : (p.1.set.head a).kind ≠ .service)
    (hc : p.2.tele.conds.length = 22) : (staleExpiry a p).2.active .headStale = true := by
  have stale : (p.1.updateHead a (fun r => { r with state := .stale, stale := none })).anyStale = true := by
    refine Env.anyStale_of_head (a := a) ?_ ?_ ?_ ?_
    · rwa [Env.updateHead_set]
    · rwa [Env.updateHead_set]
    · rwa [Env.updateHead_set]
    · rw [head_stale hk (hheads.trans hset.symm)]
  rw [staleExpiry_running hr hk]
  dsimp only
  rw [if_neg hs, Jobs.headStaleTest, stale]
  exact Jobs.raise_active _ _ hc

end Sys2Proof.Machine

open Sys2Proof Sys2Proof.Machine

/-- Settles O23. -/
theorem staleExpiryMakesHeadStale : Obligations.StaleExpiryMakesHeadStale := by
  intro a s hshape
  refine ⟨fun hs hn => ?_, fun hp hr hk => ⟨_, exec_staleExpiry a hp, ?_⟩⟩
  · rw [exec_ready hs (by simp) (by simp)]
    exact congrArg (fun t => Host.Outcome.next t.creditWatch) (State.change_idle hs.2 (staleExpiry_stopped hn))
  · obtain ⟨⟨hset, -⟩, hheads, -⟩ := id hshape
    have henv : (s.settled.change (staleExpiry a)).env
        = s.env.updateHead a (fun r => { r with state := .stale, stale := none }) :=
      congrArg Prod.fst (staleExpiry_running (p := s.settled.part) hr hk)
    have hhull : (s.settled.change (staleExpiry a)).jobs.hull = s.jobs.hull :=
      (State.hull_change ..).trans ((hull_staleExpiry ..).trans s.settled_hull)
    refine ⟨?_, fun b hb => ?_, ?_, ?_, fun hs => ?_, rfl, congrArg Hull.flight hhull, Jobs.hull_act hhull⟩
    · rw [State.creditWatch_env, henv]
      exact head_stale hk (hheads.trans hset.symm)
    · rw [State.creditWatch_env, henv]
      exact Env.head_updateHead_ne _ _ hb
    · rw [State.creditWatch_env, henv, Env.updateHead_set]
    · rw [State.creditWatch_env, henv, Env.updateHead_clock]
    · exact (State.active_change _ rfl _).trans
        (staleExpiry_active (p := s.settled.part) hr hk hset hheads hs (State.Move.settled.shaped hshape).conds)
end

section
/-!
PROOFS. The Level unit: the conversion of the gauges, their fusion, and the expiry of the split timer (spec/03 R40 to R51).
-/

namespace Sys2Proof.Machine

variable {e : Env} {j : Jobs} {s : State}

/-! ## Conversion (R42, R44, R51) -/

/-- R51: a level clamped to the tank height in force stays as it is. -/
@[simp] theorem GaugeLevel.reclamp_gaugeLevel (tank raw : Nat) (offScale : Bool) :
    (gaugeLevel tank raw offScale).reclamp tank = gaugeLevel tank raw offScale := rfl

@[simp] theorem GaugeLevel.reclamp_convertA (tank count : Nat) (mark : Bool) (z s f : Nat) :
    (convertA tank count mark z s f).reclamp tank = convertA tank count mark z s f := GaugeLevel.reclamp_gaugeLevel ..

@[simp] theorem GaugeLevel.reclamp_convertB (tank distance : Nat) (mark : Bool) (mount : Nat) :
    (convertB tank distance mark mount).reclamp tank = convertB tank distance mark mount := GaugeLevel.reclamp_gaugeLevel ..

theorem GaugeLevel.raw_reclamp (tank : Nat) (g : Option GaugeLevel) :
    (g.map (GaugeLevel.reclamp tank)).map (·.raw) = g.map (·.raw) := by
  cases g <;> rfl

/-! ## Recomputation (R40) -/

/-- R48, R49: the tests of the gauge conditions leave the Level Record. -/
@[simp] theorem Jobs.gaugeSplitTest_level (was : Fusion) (j : Jobs) : (j.gaugeSplitTest e was).level = j.level := by
  unfold Jobs.gaugeSplitTest
  split <;> rfl

@[simp] theorem Jobs.gaugeLostTest_level (was : Fusion) (j : Jobs) : (j.gaugeLostTest e was).level = j.level := by
  unfold Jobs.gaugeLostTest
  dsimp only
  split
  · split <;> rfl
  · split <;> rfl
  · rfl
  · rfl
  · rfl

/-- R40, R51: the gauge levels after a recomputation are those it was given, clamped to the tank height in force. -/
theorem Jobs.recompute_gauges (e : Env) (a b : Option GaugeLevel) (j : Jobs) :
    (j.recompute e a b).level.gaugeA = a.map (GaugeLevel.reclamp e.set.general.tankHeight)
      ∧ (j.recompute e a b).level.gaugeB = b.map (GaugeLevel.reclamp e.set.general.tankHeight) := by
  unfold Jobs.recompute
  dsimp only
  split
  · simp [LevelRecord.derive]
  · simp [LevelRecord.derive]

/-! ## Fusion (R46, R47, R50) -/

section Fusion

variable {x y : GaugeLevel} (suspectA suspectB : Bool) (r : LevelRecord)

/-- R46: two gauge levels within the tolerance. -/
theorem LevelRecord.derive_agree (h : apart x.level y.level ≤ e.set.general.agreeTol) :
    let n := r.derive e suspectA suspectB (some x) (some y)
    n.fusion = .agree ∧ n.fill = (x.level + y.level) / 2 ∧ n.guard = (x.level + y.level) / 2 :=
  ⟨if_pos h, if_pos h, if_pos h⟩

/-- R46, R47: two gauge levels beyond the tolerance; the guard level passes over a gauge that alone is suspect. -/
theorem LevelRecord.derive_split (h : e.set.general.agreeTol < apart x.level y.level) :
    let n := r.derive e suspectA suspectB (some x) (some y)
    n.fusion = .split ∧ n.fill = min x.level y.level
      ∧ n.guard = if suspectA = true ∧ suspectB = false then y.level
          else if suspectA = false ∧ suspectB = true then x.level else max x.level y.level := by
  have hn := Nat.not_le.mpr h
  refine ⟨if_neg hn, if_neg hn, (if_neg hn).trans ?_⟩
  cases suspectA <;> cases suspectB <;> rfl

/-- R46: two gauge levels, within the tolerance or not, leave no aged figure. -/
theorem LevelRecord.derive_aged : (r.derive e suspectA suspectB (some x) (some y)).aged = false := by
  show (fusionOf _ _ _ == Fusion.blind) = false
  unfold fusionOf
  dsimp only
  split <;> rfl

/-- R50: with two gauge levels the fill level is at most the guard level, and both lie within a height that neither gauge
level exceeds. -/
theorem LevelRecord.derive_levels {tank : Nat} (hx : x.level ≤ tank) (hy : y.level ≤ tank) :
    let n := r.derive e suspectA suspectB (some x) (some y)
    n.fill ≤ n.guard ∧ n.guard ≤ tank := by
  dsimp only
  rcases le_or_gt (apart x.level y.level) e.set.general.agreeTol with h | h
  · obtain ⟨-, hfill, hguard⟩ := r.derive_agree suspectA suspectB h
    rw [hfill, hguard]
    omega
  · obtain ⟨-, hfill, hguard⟩ := r.derive_split suspectA suspectB h
    rw [hfill, hguard]
    split
    · exact ⟨min_le_right .., hy⟩
    · split
      · exact ⟨min_le_left .., hx⟩
      · exact ⟨min_le_max, max_le hx hy⟩

end Fusion

/-! ## The split timer (R48) -/

/-- Log 3: without a running split timer there is no expiry. -/
theorem Jobs.splitExpiry_stopped (h : j.level.split = none) : j.splitExpiry e = j := by
  unfold Jobs.splitExpiry
  rw [h]
  rfl

theorem Jobs.splitExpiry_running (h : j.level.split ≠ none) :
    j.splitExpiry e = { j with level := { j.level with split := none } }.raise e .gaugeSplit :=
  if_pos (Option.isSome_iff_ne_none.mpr h)

/-- R48: at a settled part the expiry of a running timer causes nothing but its raise. -/
theorem State.work_splitExpiry (hs : s.Settled) (h : s.jobs.level.split ≠ none) :
    s.work Jobs.splitExpiry =
      { s with jobs := { s.jobs with level := { s.jobs.level with split := none } }.raise s.env .gaugeSplit } := by
  have hrun := Jobs.splitExpiry_running (e := s.env) h
  have hmark : (s.jobs.splitExpiry s.env).active .actuatorDiscord = s.jobs.active .actuatorDiscord := by
    rw [hrun]
    exact congrArg Prod.fst (Tele.flags_raise_ne _ (by decide) _)
  obtain ⟨hw, hb, -⟩ := id hs
  rw [State.work_quiet hs (by rw [hrun]; rfl) (by rw [hrun]; rfl) (by rw [hrun]; exact hw) (by rw [hrun]; exact hb)
    (by rw [hrun]; rfl) hmark, hrun]

end Sys2Proof.Machine

open Sys2Proof Sys2Proof.Machine

/-- Settles O24: a recomputation clamps the levels it is given anew, which leaves a converted level as it is. -/
theorem gaugeDeliveriesConvert : Obligations.GaugeDeliveriesConvert := by
  refine ⟨fun e j c mark z s f => ?_, fun e j d mark m => ?_⟩
  · obtain ⟨hA, hB⟩ := j.recompute_gauges e (some (convertA e.set.general.tankHeight c mark z s f)) j.level.gaugeB
    refine ⟨?_, (congrArg _ hB).trans (GaugeLevel.raw_reclamp ..)⟩
    rw [Jobs.gaugeA, hA, Option.map_some, GaugeLevel.reclamp_convertA]
    rfl
  · obtain ⟨hA, hB⟩ := j.recompute_gauges e j.level.gaugeA (some (convertB e.set.general.tankHeight d mark m))
    refine ⟨?_, (congrArg _ hA).trans (GaugeLevel.raw_reclamp ..)⟩
    rw [Jobs.gaugeB, hB, Option.map_some, GaugeLevel.reclamp_convertB]
    rfl

/-- Settles O27. -/
theorem splitExpiryRaisesGaugeSplit : Obligations.SplitExpiryRaisesGaugeSplit := by
  intro s hs hshape
  have hexec : exec .splitTimerExpiry s = .next (s.work Jobs.splitExpiry).creditWatch :=
    exec_ready hs (by decide) (by decide)
  refine ⟨fun hn => ?_, fun hr => ⟨_, hexec, ?_⟩⟩
  · rw [hexec]
    have hidle : s.work Jobs.splitExpiry = s :=
      State.change_idle hs.2 (congrArg (Prod.mk s.env) (Jobs.splitExpiry_stopped hn))
    rw [hidle]
  · rw [State.work_splitExpiry hs.2 hr]
    exact ⟨rfl, Jobs.raise_active _ _ hshape.conds, rfl, rfl, fun k hk => Tele.flags_raise_ne _ hk _⟩

/-- Settles O25, row by row of R46. -/
theorem fusionFollowsGauges : Obligations.FusionFollowsGauges := by
  intro e suspectA suspectB a b r
  refine ⟨?both, ?onlyA, ?onlyB, ?neither⟩
  case both =>
    rintro x y rfl rfl hx hy
    obtain ⟨hfill, hguard⟩ := r.derive_levels (e := e) suspectA suspectB hx hy
    refine ⟨fun h => ?_, fun h => r.derive_split suspectA suspectB h, hfill, hguard, r.derive_aged .., rfl⟩
    obtain ⟨hfusion, hfill, hguard⟩ := r.derive_agree suspectA suspectB h
    exact ⟨hfusion, hfill, hguard.trans hfill.symm⟩
  case onlyA =>
    rintro x rfl rfl
    exact ⟨rfl, rfl, rfl, rfl, Bool.or_false _⟩
  case onlyB =>
    rintro y rfl rfl
    exact ⟨rfl, rfl, rfl, rfl, rfl⟩
  case neither =>
    rintro rfl rfl
    exact ⟨rfl, rfl, rfl, rfl, rfl⟩
end

section
/-!
PROOFS. The volume by the strapping points (spec/03 R52, R53).
-/

namespace Sys2Proof.Machine

variable {p q : Point} {rest : List Point} {l l' : Nat}

/-! ## One segment (R53) -/

/-- R53: the volume at a level between two neighbouring points. -/
def chord (p q : Point) (l : Nat) : Nat := p.volume + (l - p.level) * (q.volume - p.volume) / (q.level - p.level)

theorem volumeOn_within (hp : p.level ≤ l) (hq : l < q.level) : volumeOn (p :: q :: rest) l = chord p q l :=
  if_pos ⟨hp, hq⟩

theorem volumeOn_beyond (h : q.level ≤ l) : volumeOn (p :: q :: rest) l = volumeOn (q :: rest) l :=
  if_neg fun hl => Nat.not_lt.mpr h hl.2

theorem chord_start (p q : Point) : chord p q p.level = p.volume := by simp [chord]

theorem chord_mono (h : l ≤ l') : chord p q l ≤ chord p q l' := by
  unfold chord
  gcongr

/-- R53: between two points whose volumes do not fall, the volume stays below that of the second. -/
theorem chord_le (hv : p.volume ≤ q.volume) (hl : l ≤ q.level) : chord p q l ≤ q.volume := by
  have hpart : (l - p.level) * (q.volume - p.volume) / (q.level - p.level) ≤ q.volume - p.volume :=
    Nat.div_le_of_le_mul (Nat.mul_le_mul_right _ (Nat.sub_le_sub_right hl _))
  unfold chord
  omega

/-! ## A run of points in strapping order (R52, R53) -/

theorem rising_cons : rising (p :: q :: rest) = true
    ↔ (p.level < q.level ∧ p.volume ≤ q.volume) ∧ rising (q :: rest) = true := by
  simp [rising]

/-- From the first point on, the volume does not fall below the first point's. -/
theorem first_le_volumeOn (h : rising (p :: rest) = true) (hl : p.level ≤ l) : p.volume ≤ volumeOn (p :: rest) l := by
  induction rest generalizing p with
  | nil => exact le_rfl
  | cons q rest ih =>
    obtain ⟨⟨-, hv⟩, hrest⟩ := rising_cons.mp h
    rcases Nat.lt_or_ge l q.level with hq | hq
    · rw [volumeOn_within hl hq]
      exact Nat.le_add_right ..
    · rw [volumeOn_beyond hq]
      exact hv.trans (ih hrest hq)

theorem volumeOn_le_last (h : rising (p :: rest) = true) (hl : p.level ≤ l) :
    volumeOn (p :: rest) l ≤ ((p :: rest).getD rest.length ⟨0, 0⟩).volume := by
  induction rest generalizing p l with
  | nil => exact le_rfl
  | cons q rest ih =>
    obtain ⟨⟨-, hv⟩, hrest⟩ := rising_cons.mp h
    rw [List.length_cons, List.getD_cons_succ]
    rcases Nat.lt_or_ge l q.level with hq | hq
    · calc volumeOn (p :: q :: rest) l = chord p q l := volumeOn_within hl hq
        _ ≤ q.volume := chord_le hv hq.le
        _ ≤ volumeOn (q :: rest) q.level := first_le_volumeOn hrest le_rfl
        _ ≤ _ := ih hrest le_rfl
    · rw [volumeOn_beyond hq]
      exact ih hrest hq

theorem volumeOn_mono (h : rising (p :: rest) = true) (hl : p.level ≤ l) (hll : l ≤ l') :
    volumeOn (p :: rest) l ≤ volumeOn (p :: rest) l' := by
  induction rest generalizing p with
  | nil => exact le_rfl
  | cons q rest ih =>
    obtain ⟨⟨-, hv⟩, hrest⟩ := rising_cons.mp h
    rcases Nat.lt_or_ge l' q.level with hq' | hq'
    · rw [volumeOn_within hl (hll.trans_lt hq'), volumeOn_within (hl.trans hll) hq']
      exact chord_mono hll
    rw [volumeOn_beyond hq']
    rcases Nat.lt_or_ge l q.level with hq | hq
    · rw [volumeOn_within hl hq]
      exact (chord_le hv hq.le).trans (first_le_volumeOn hrest hq')
    · rw [volumeOn_beyond hq]
      exact ih hrest hq

/-- The first level of a run in strapping order is its lowest. -/
theorem first_le_level (h : rising (p :: rest) = true) {x : Point} (hx : x ∈ p :: rest) : p.level ≤ x.level := by
  induction rest generalizing p with
  | nil => rw [List.mem_singleton.mp hx]
  | cons q rest ih =>
    obtain ⟨⟨hpq, -⟩, hrest⟩ := rising_cons.mp h
    rcases List.mem_cons.mp hx with rfl | hx
    · exact le_rfl
    · exact hpq.le.trans (ih hrest hx)

/-- R53: at a point's level the volume is the point's own. -/
theorem volumeOn_point (h : rising (p :: rest) = true) {x : Point} (hx : x ∈ p :: rest) :
    volumeOn (p :: rest) x.level = x.volume := by
  induction rest generalizing p with
  | nil => rw [List.mem_singleton.mp hx]; rfl
  | cons q rest ih =>
    obtain ⟨⟨hpq, -⟩, hrest⟩ := rising_cons.mp h
    rcases List.mem_cons.mp hx with rfl | hx
    · rw [volumeOn_within le_rfl hpq, chord_start]
    · rw [volumeOn_beyond (first_le_level hrest hx)]
      exact ih hrest hx

/-! ## The in-use points (R52) -/

/-- The points in use, `p` the first of them, are in strapping order: they begin at level 0 and rise. -/
structure Settings.Strapped (s : Settings) (p : Point) (rest : List Point) : Prop where
  inUse : s.points.take s.pointsInUse = p :: rest
  length : rest.length + 1 = s.pointsInUse
  first : p.level = 0
  rises : rising (p :: rest) = true

theorem Settings.Strapped.getD {set : Settings} (h : set.Strapped p rest) {i : Nat} (hi : i < set.pointsInUse) :
    set.points.getD i ⟨0, 0⟩ = (p :: rest).getD i ⟨0, 0⟩ := by
  simp only [← h.inUse, List.getD_eq_getElem?_getD, List.getElem?_take_of_lt hi]

/-- R52: a table that passes the check of the strapping order, with a point in use, has such points. -/
theorem Settings.strapped_of_ok {set : Settings} (hok : set.strappingOk = true) (h0 : 0 < set.pointsInUse)
    (hl : set.pointsInUse ≤ set.points.length) : ∃ p rest, set.Strapped p rest := by
  simp only [Settings.strappingOk, Bool.and_eq_true, beq_iff_eq] at hok
  obtain ⟨⟨hfirst, hrises⟩, -⟩ := hok
  have hlen : (set.points.take set.pointsInUse).length = set.pointsInUse := List.length_take_of_le hl
  obtain ⟨n, hn⟩ := Nat.exists_eq_succ_of_ne_zero h0.ne'
  cases hp : set.points with
  | nil => exact absurd h0 (by simpa [hp] using hl)
  | cons p rest =>
    have htake : set.points.take set.pointsInUse = p :: rest.take n := by rw [hp, hn]; rfl
    exact ⟨p, rest.take n, htake, by rw [← hlen, htake]; rfl, by rwa [hp] at hfirst, htake ▸ hrises⟩

end Sys2Proof.Machine

open Sys2Proof Sys2Proof.Machine

/-- Settles O26, by the laws of `volumeOn` on a run of points in strapping order that begins at level 0. -/
theorem volumeFollowsStrapping : Obligations.VolumeFollowsStrapping := by
  intro s hok h2 hl
  obtain ⟨p, rest, hs⟩ := Settings.strapped_of_ok hok (by omega) hl
  have hbegin : ∀ l, p.level ≤ l := fun l => hs.first.trans_le (Nat.zero_le l)
  have hlast : s.pointsInUse - 1 = rest.length := by rw [← hs.length, Nat.add_sub_cancel]
  unfold Settings.volumeAt
  rw [hs.inUse, hs.getD (by omega), hs.getD (by omega), hlast]
  refine ⟨fun l => ⟨first_le_volumeOn hs.rises (hbegin l), volumeOn_le_last hs.rises (hbegin l)⟩,
    fun l l' h => volumeOn_mono hs.rises (hbegin l) h, fun i hi => ?_⟩
  have hlen : i < (p :: rest).length := hi.trans_eq hs.length.symm
  rw [hs.getD hi, List.getD_eq_getElem _ _ hlen]
  exact volumeOn_point hs.rises (List.getElem_mem hlen)
end

section
/-!
PROOFS. The Command Queue as a list: guard items before the others, the fences and the places of a guard group, and how many guard
items the Actuator Table allows (R60, R67 to R70).
The proofs are elaborated one after the other, which keeps the whole text inside the sandbox's memory.
-/

set_option Elab.async false

namespace Sys2Proof.Machine

/-! ## Guard items first -/

/-- R67, R69: of two items a guard item is never behind an item that is none. -/
abbrev GuardFirst (q : List QueueItem) : Prop := q.Pairwise fun x y => y.isGuard = true → x.isGuard = true

theorem guardFirst_of_none {q : List QueueItem} (h : ∀ x ∈ q, x.isGuard = false) : GuardFirst q :=
  List.pairwise_of_forall_mem_list fun _ _ y hy hg => by rw [h y hy] at hg; cases hg

theorem guardFirst_iff (q : List QueueItem) :
    GuardFirst q ↔ ∀ x ∈ q.dropWhile QueueItem.isGuard, x.isGuard = false := by
  induction q with
  | nil => simp
  | cons x q ih =>
    unfold GuardFirst at ih ⊢
    rw [List.pairwise_cons]
    cases hx : x.isGuard with
    | true => simpa [List.dropWhile_cons_of_pos hx] using ih
    | false =>
      rw [List.dropWhile_cons_of_neg (by simp [hx])]
      refine ⟨fun ⟨hq, _⟩ y hy => ?_, fun h => ⟨fun y hy hg => ?_, ?_⟩⟩
      · rcases List.mem_cons.mp hy with rfl | hy
        · exact hx
        · cases hg : y.isGuard with
          | false => rfl
          | true => exact absurd (hq y hy hg) (by simp)
      · rw [h y (List.mem_cons_of_mem _ hy)] at hg; cases hg
      · exact guardFirst_of_none fun y hy => h y (List.mem_cons_of_mem _ hy)

/-- Guard items before items that are none. -/
theorem GuardFirst.append {a c : List QueueItem} (ha : ∀ x ∈ a, x.isGuard = true) (hc : ∀ x ∈ c, x.isGuard = false) :
    GuardFirst (a ++ c) :=
  List.pairwise_append.mpr ⟨List.pairwise_of_forall_mem_list fun x hx _ _ _ => ha x hx, guardFirst_of_none hc,
    fun x hx _ _ _ => ha x hx⟩

/-- An item that is no guard item joins the tail. -/
theorem GuardFirst.snoc {q : List QueueItem} {x : QueueItem} (h : GuardFirst q) (hx : x.isGuard = false) :
    GuardFirst (q ++ [x]) :=
  List.pairwise_append.mpr ⟨h, List.pairwise_singleton _ _, fun _ _ y hy hg => by
    rw [List.mem_singleton.mp hy, hx] at hg; cases hg⟩

/-- An item that is not the guard's is no guard command. -/
theorem guardIdx_of_isGuard {x : QueueItem} (h : x.isGuard = false) : x.guardIdx = none := by
  cases x with
  | cmd i a o => simpa [QueueItem.isGuard, QueueItem.guardIdx] using h
  | fence g => rfl

theorem isFor_of_guardIdx {x : QueueItem} {i : Nat} (h : x.guardIdx = some i) : x.isFor i = true := by
  cases x with
  | cmd k a o =>
    have hk : o = .guard ∧ k = i := by simpa [QueueItem.guardIdx] using h
    simp [QueueItem.isFor, hk.2]
  | fence g => cases h

theorem filterMap_guardIdx_of_none {q : List QueueItem} (h : ∀ x ∈ q, x.isGuard = false) :
    q.filterMap QueueItem.guardIdx = [] :=
  List.filterMap_eq_nil_iff.mpr fun x hx => guardIdx_of_isGuard (h x hx)

/-! ## Fences that stand next to each other (R69) -/

theorem joinFences_sublist (l : List QueueItem) : (joinFences l).Sublist l := by
  induction l using joinFences.induct with
  | case1 rest ih => rw [joinFences]; exact ih.trans (List.sublist_cons_self ..)
  | case2 x rest hne ih => rw [joinFences.eq_2 x rest hne]; exact ih.cons_cons x
  | case3 => exact List.Sublist.refl _

theorem joinFences_head? (l : List QueueItem) : (joinFences l).head? = l.head? := by
  induction l using joinFences.induct with
  | case1 rest ih => rw [joinFences]; exact ih
  | case2 x rest hne ih => rw [joinFences.eq_2 x rest hne]; rfl
  | case3 => rfl

/-- A test that no guard fence passes finds the same items. -/
theorem joinFences_filter (p : QueueItem → Bool) (hp : p (.fence true) = false) (l : List QueueItem) :
    (joinFences l).filter p = l.filter p := by
  induction l using joinFences.induct with
  | case1 rest ih => rw [joinFences, ih]; simp [hp]
  | case2 x rest hne ih => rw [joinFences.eq_2 x rest hne, List.filter_cons, List.filter_cons, ih]
  | case3 => rfl

/-- Two items are not both guard fences. -/
def Apart (x y : QueueItem) : Prop := ¬ (x = .fence true ∧ y = .fence true)

theorem joinFences_apart (l : List QueueItem) : (joinFences l).IsChain Apart := by
  induction l using joinFences.induct with
  | case1 rest ih => rw [joinFences]; exact ih
  | case2 x rest hne ih =>
    rw [joinFences.eq_2 x rest hne]
    refine List.isChain_cons.mpr ⟨fun y hy hxy => ?_, ih⟩
    rw [joinFences_head?] at hy
    obtain ⟨rest', rfl⟩ : ∃ rest', rest = y :: rest' := by
      cases rest with
      | nil => cases hy
      | cons z zs => cases hy; exact ⟨zs, rfl⟩
    exact hne rest' (by rw [hxy.1]) (by rw [hxy.2])
  | case3 => exact List.isChain_nil

/-! ## The place of a group (R69) -/

theorem isGuard_guardItem (x : Ask) : (guardItem x).isGuard = true := by cases x <;> rfl

/-- The guard items of a queue in which a group has been placed. -/
def guardPart (group : List Ask) (q : List QueueItem) : List QueueItem :=
  joinFences (q.takeWhile QueueItem.isGuard ++ group.map guardItem)

theorem placeGroup_eq (group : List Ask) (q : List QueueItem) :
    placeGroup group q = guardPart group q ++ q.dropWhile QueueItem.isGuard := rfl

theorem isGuard_of_mem_guardPart {group : List Ask} {q : List QueueItem} {x : QueueItem} (h : x ∈ guardPart group q) :
    x.isGuard = true := by
  rcases List.mem_append.mp ((joinFences_sublist _).subset h) with h | h
  · exact (List.all_eq_true.mp (List.all_takeWhile (p := QueueItem.isGuard))) x h
  · obtain ⟨a, -, rfl⟩ := List.mem_map.mp h
    exact isGuard_guardItem a

theorem guardFirst_placeGroup (group : List Ask) {q : List QueueItem} (h : GuardFirst q) : GuardFirst (placeGroup group q) :=
  .append (fun _ => isGuard_of_mem_guardPart) ((guardFirst_iff q).mp h)

/-- The items that a test finds among the items of a queue with the guard's first: those of the guard's part. -/
theorem filter_takeWhile_guard {p : QueueItem → Bool} (hp : ∀ x, p x = true → x.isGuard = true) {q : List QueueItem}
    (h : GuardFirst q) : (q.takeWhile QueueItem.isGuard).filter p = q.filter p := by
  conv_rhs => rw [← List.takeWhile_append_dropWhile (p := QueueItem.isGuard) (l := q), List.filter_append]
  have others : (q.dropWhile QueueItem.isGuard).filter p = [] := List.filter_eq_nil_iff.mpr fun x hx hpx => by
    have := (guardFirst_iff q).mp h x hx
    rw [hp x hpx] at this
    cases this
  rw [others, List.append_nil]

/-- R69: the items that are no guard's keep their order. -/
theorem placeGroup_others (group : List Ask) (q : List QueueItem) :
    (placeGroup group q).filter (fun x => !x.isGuard) = q.filter (fun x => !x.isGuard) := by
  have none : ∀ l : List QueueItem, (∀ x ∈ l, x.isGuard = true) → l.filter (fun x => !x.isGuard) = [] := fun l hl =>
    List.filter_eq_nil_iff.mpr fun x hx => by simp [hl x hx]
  conv_rhs => rw [← List.takeWhile_append_dropWhile (p := QueueItem.isGuard) (l := q), List.filter_append]
  rw [placeGroup_eq, List.filter_append, none _ fun _ => isGuard_of_mem_guardPart,
    none _ (List.all_eq_true.mp List.all_takeWhile)]

/-- R69: the guard commands that stood keep their order, and those of the group follow. -/
theorem placeGroup_commands (group : List Ask) {q : List QueueItem} (h : GuardFirst q) :
    (placeGroup group q).filter (fun x => x.isGuard && !x.isFence)
      = q.filter (fun x => x.isGuard && !x.isFence) ++ (group.map guardItem).filter (fun x => !x.isFence) := by
  have others : (q.dropWhile QueueItem.isGuard).filter (fun x => x.isGuard && !x.isFence) = [] :=
    List.filter_eq_nil_iff.mpr fun x hx => by simp [(guardFirst_iff q).mp h x hx]
  have mine : (group.map guardItem).filter (fun x => x.isGuard && !x.isFence)
      = (group.map guardItem).filter (fun x => !x.isFence) := List.filter_congr fun x hx => by
    obtain ⟨a, -, rfl⟩ := List.mem_map.mp hx
    rw [isGuard_guardItem, Bool.true_and]
  rw [placeGroup_eq, List.filter_append, others, List.append_nil, guardPart, joinFences_filter _ rfl, List.filter_append,
    filter_takeWhile_guard (by simp +contextual) h, mine]

/-- R69: no two guard fences stand next to each other in the guard's part. -/
theorem placeGroup_apart (group : List Ask) {q : List QueueItem} (h : GuardFirst q) :
    (placeGroup group q).IsChain Apart := by
  have others : ∀ y ∈ q.dropWhile QueueItem.isGuard, ∀ x, Apart x y := fun y hy x hxy => by
    have := (guardFirst_iff q).mp h y hy
    rw [hxy.2] at this
    cases this
  refine List.isChain_append.mpr ⟨joinFences_apart _, ?_, fun x _ y hy => others y (List.mem_of_mem_head? hy) x⟩
  exact (List.pairwise_of_forall_mem_list fun x _ y hy => others y hy x).isChain

/-- What a guard group adds to the guard commands. -/
def Ask.guardIdx : Ask → Option Nat
  | .cmd i _ => some i
  | .fence => none

theorem guardIdx_guardItem (x : Ask) : (guardItem x).guardIdx = x.guardIdx := by cases x <;> rfl

theorem filterMap_guardIdx_filter (q : List QueueItem) :
    (q.filter (fun x => x.isGuard && !x.isFence)).filterMap QueueItem.guardIdx = q.filterMap QueueItem.guardIdx := by
  rw [List.filterMap_filter]
  refine List.filterMap_congr fun x _ => ?_
  cases x with
  | cmd i a o =>
    by_cases ho : o = .guard
    · simp [QueueItem.isGuard, QueueItem.isFence, ho]
    · simp [QueueItem.isGuard, QueueItem.guardIdx, ho]
  | fence g => simp [QueueItem.guardIdx]

/-- R69: the actuators of the guard commands once a group has been placed. -/
theorem filterMap_guardIdx_placeGroup (group : List Ask) {q : List QueueItem} (h : GuardFirst q) :
    (placeGroup group q).filterMap QueueItem.guardIdx = q.filterMap QueueItem.guardIdx ++ group.filterMap Ask.guardIdx := by
  have mine : ((group.map guardItem).filter (fun x => !x.isFence)).filterMap QueueItem.guardIdx
      = group.filterMap Ask.guardIdx := by
    rw [List.filterMap_filter, List.filterMap_map]
    refine List.filterMap_congr fun x _ => ?_
    cases x <;> rfl
  rw [← filterMap_guardIdx_filter, placeGroup_commands group h, List.filterMap_append, mine, filterMap_guardIdx_filter]

/-! ## How many guard items there are (R60) -/

/-- Guard items no two fences of which are neighbours: the fences are at most one more than the commands. -/
theorem length_le_of_apart {l : List QueueItem} (hg : ∀ x ∈ l, x.isGuard = true) (h : l.IsChain Apart) :
    l.length ≤ 2 * (l.filterMap QueueItem.guardIdx).length + (if l.head? = some (.fence true) then 1 else 0) := by
  induction l with
  | nil => simp
  | cons x l ih =>
    obtain ⟨hx, hl⟩ := List.isChain_cons.mp h
    have hlen := ih (fun y hy => hg y (List.mem_cons_of_mem _ hy)) hl
    have hxg := hg x List.mem_cons_self
    cases x with
    | cmd i a o =>
      have ho : o = .guard := by simpa [QueueItem.isGuard] using hxg
      subst ho
      simp only [List.filterMap_cons, QueueItem.guardIdx, if_true, List.length_cons, List.head?_cons]
      split at hlen <;> simp <;> omega
    | fence g =>
      have hg' : g = true := hxg
      subst hg'
      have hhead : l.head? ≠ some (.fence true) := fun hh => hx _ hh ⟨rfl, rfl⟩
      rw [if_neg hhead] at hlen
      simp only [List.filterMap_cons, QueueItem.guardIdx, List.length_cons, List.head?_cons, if_true]
      omega

theorem filter_getD_range {α : Type} (p : α → Bool) (l : List α) (d : α) :
    ((List.range l.length).filter (fun i => p (l.getD i d))).length = (l.filter p).length := by
  have hl : (List.range l.length).map (fun i => l.getD i d) = l := by
    refine List.ext_getElem (by simp) fun i h _ => ?_
    rw [List.length_map, List.length_range] at h
    simp [List.getD_eq_getElem?_getD, h]
  conv_rhs => rw [← hl]
  rw [List.filter_map, List.length_map]
  rfl

theorem length_filter_kinds (l : List ActSettings) :
    (l.filter ActSettings.guarded).length
      = ((l.filter ActSettings.inUse).filter (fun a => a.kind == .pump)).length
        + ((l.filter ActSettings.inUse).filter (fun a => a.kind == .valveInlet)).length
        + ((l.filter ActSettings.inUse).filter (fun a => a.kind == .valveDrain)).length := by
  induction l with
  | nil => rfl
  | cons a l ih =>
    cases hu : a.inUse with
    | false =>
      rw [List.filter_cons_of_neg (by simp [ActSettings.guarded, hu]), List.filter_cons_of_neg (by simp [hu]), ih]
    | true =>
      have hg : a.guarded = (a.kind != .heater) := by rw [ActSettings.guarded, hu, Bool.true_and]
      rw [List.filter_cons, hg, List.filter_cons_of_pos hu]
      cases hk : a.kind <;> simp only [List.filter_cons, hk] <;> simp [ih] <;> omega

/-- R60: at most two pumps, one inlet valve and one drain valve are in use. -/
theorem guarded_length_le {l : List ActSettings} (h : actuatorsOk l = true) : (l.filter ActSettings.guarded).length ≤ 4 := by
  simp only [actuatorsOk, Bool.and_eq_true, decide_eq_true_eq] at h
  obtain ⟨⟨⟨⟨-, hp⟩, hi⟩, hd⟩, -⟩ := h
  rw [length_filter_kinds]
  omega

/-- R60: different pumps and valves in use are at most four. -/
theorem Settings.guarded_nodup_le {set : Settings} (hok : actuatorsOk set.actuators = true) {l : List Nat} (hn : l.Nodup)
    (hl : ∀ i ∈ l, (set.act i).guarded = true) : l.length ≤ 4 := by
  have sub : l ⊆ (List.range set.actuators.length).filter (fun i => (set.actuators.getD i .factory).guarded) := by
    intro i hi
    have hg : (set.actuators.getD i .factory).guarded = true := hl i hi
    refine List.mem_filter.mpr ⟨List.mem_range.mpr ?_, hg⟩
    by_contra hlen
    rw [List.getD_eq_default _ _ (Nat.le_of_not_lt hlen)] at hg
    cases hg
  calc l.length ≤ _ := (hn.subperm sub).length_le
    _ = _ := filter_getD_range ..
    _ ≤ 4 := guarded_length_le hok

end Sys2Proof.Machine
end

section
/-!
PROOFS. What keeps the Command Queue sound: an operation that takes items away or leaves the queue alone (`Jobs.Trims`), and one that
adds an item (R67 to R70, R79).
The proofs are elaborated one after the other, which keeps the whole text inside the sandbox's memory.
-/

set_option Elab.async false

namespace Sys2Proof.Machine

variable {set : Settings} {e : Env} {j0 j j' : Jobs}

/-! ## Sound queues -/

/-- R60, R67, R69, R70, R79: the queue holds at most 16 items, the guard's first, at most one guard command for an actuator and
those for pumps and valves in use alone; no parked request is the guard's; and the Actuator Table keeps its numbers. -/
structure Jobs.QueueSound (set : Settings) (j : Jobs) : Prop where
  room : j.queue.length ≤ Config.queueMax
  first : GuardFirst j.queue
  nodup : (j.queue.filterMap QueueItem.guardIdx).Nodup
  guarded : ∀ i ∈ j.queue.filterMap QueueItem.guardIdx, (set.act i).guarded = true
  parked : ∀ i, ∀ x ∈ (j.act i).parked, x.2 ≠ .guard
  table : actuatorsOk set.actuators = true

/-- A change that takes items from the queue at most, and parks no request. -/
structure Jobs.Trims (j j' : Jobs) : Prop where
  queue : j'.queue.Sublist j.queue
  parked : ∀ i, ∀ x ∈ (j'.act i).parked, x ∈ (j.act i).parked

theorem Jobs.Trims.refl (j : Jobs) : Jobs.Trims j j := ⟨List.Sublist.refl _, fun _ _ => id⟩

theorem Jobs.Trims.trans (h : Jobs.Trims j0 j) (h' : Jobs.Trims j j') : Jobs.Trims j0 j' :=
  ⟨h'.queue.trans h.queue, fun i x hx => h.parked i x (h'.parked i x hx)⟩

/-- A change of neither the queue nor an actuator's record. -/
theorem Jobs.Trims.same (h : Jobs.Trims j0 j) (hq : j'.queue = j.queue := by rfl) (ha : j'.acts = j.acts := by rfl) :
    Jobs.Trims j0 j' := h.trans ⟨hq ▸ List.Sublist.refl _, fun i x => by unfold Jobs.act; rw [ha]; exact id⟩

theorem Jobs.QueueSound.trims (h : Jobs.QueueSound set j) (ht : Jobs.Trims j j') : Jobs.QueueSound set j' where
  room := ht.queue.length_le.trans h.room
  first := h.first.sublist ht.queue
  nodup := h.nodup.sublist (ht.queue.filterMap _)
  guarded i hi := h.guarded i ((ht.queue.filterMap _).subset hi)
  parked i x hx := h.parked i x (ht.parked i x hx)
  table := h.table

/-- A change of neither the queue nor an actuator's record. -/
theorem Jobs.QueueSound.same (h : Jobs.QueueSound set j) (hq : j'.queue = j.queue := by rfl)
    (ha : j'.acts = j.acts := by rfl) : Jobs.QueueSound set j' := h.trims ((Jobs.Trims.refl j).same hq ha)

/-- A fold of changes. -/
theorem Jobs.Trims.foldl {β : Type} (f : Jobs → β → Jobs) (l : List β)
    (hf : ∀ {j : Jobs} (b : β), Jobs.Trims j0 j → Jobs.Trims j0 (f j b)) (h : Jobs.Trims j0 j) :
    Jobs.Trims j0 (l.foldl f j) := by
  induction l generalizing j with
  | nil => exact h
  | cons b l ih => exact ih (hf b h)

theorem Jobs.QueueSound.foldl {β : Type} (f : Jobs → β → Jobs) (l : List β)
    (hf : ∀ {j : Jobs}, ∀ b ∈ l, Jobs.QueueSound set j → Jobs.QueueSound set (f j b)) (h : Jobs.QueueSound set j) :
    Jobs.QueueSound set (l.foldl f j) := by
  induction l generalizing j with
  | nil => exact h
  | cons b l ih => exact ih (fun c hc => hf c (List.mem_cons_of_mem _ hc)) (hf b List.mem_cons_self h)

theorem Jobs.Trims.updateAct (i : Nat) (f : ActRuntime → ActRuntime) (hf : ∀ a, ∀ x ∈ (f a).parked, x ∈ a.parked)
    (h : Jobs.Trims j0 j) : Jobs.Trims j0 (j.updateAct i f) :=
  h.trans ⟨List.Sublist.refl _, fun k x hx => by
    rcases j.act_updateAct i k f with hk | hk <;> rw [hk] at hx
    · exact hx
    · exact hf _ x hx⟩

theorem Jobs.Trims.tele' (f : TeleEnv → Tele → Tele) (h : Jobs.Trims j0 j) : Jobs.Trims j0 (j.tele' f e) :=
  h.same (Jobs.tele'_queue ..) (Jobs.tele'_acts ..)

theorem Jobs.QueueSound.tele' (f : TeleEnv → Tele → Tele) (h : Jobs.QueueSound set j) : Jobs.QueueSound set (j.tele' f e) :=
  h.trims ((Jobs.Trims.refl j).tele' f)

theorem Jobs.Trims.dequeue {q : List QueueItem} (hq : q.Sublist j.queue) (h : Jobs.Trims j0 j) :
    Jobs.Trims j0 { j with queue := q } := h.trans ⟨hq, fun _ _ => id⟩

/-! ## What takes items away (R65, R66, R68, R71) -/

theorem Jobs.Trims.tellOrigin (o : Origin) (i : Nat) (a : Action) (r : CmdResult) (h : Jobs.Trims j0 j) :
    Jobs.Trims j0 (j.tellOrigin e o i a r) := by
  unfold Jobs.tellOrigin
  split <;> try split
  all_goals exact h.same

theorem Jobs.Trims.cancel (o : Origin) (i : Nat) (a : Action) (h : Jobs.Trims j0 j) : Jobs.Trims j0 (j.cancel e o i a) := by
  unfold Jobs.cancel
  split
  · exact h.tellOrigin ..
  · exact (h.tele' _).tellOrigin ..

theorem Jobs.Trims.refuse (o : Origin) (i : Nat) (a : Action) (r : Reason) (h : Jobs.Trims j0 j) :
    Jobs.Trims j0 (j.refuse e o i a r) := ((h.same (j' := j.countRefusal)).tele' _).tellOrigin ..

theorem Jobs.Trims.spaceTest (h : Jobs.Trims j0 j) : Jobs.Trims j0 (j.spaceTest e) := by
  unfold Jobs.spaceTest
  split
  · exact h.tele' _
  · exact h

theorem Jobs.Trims.fenceTest (h : Jobs.Trims j0 j) : Jobs.Trims j0 (j.fenceTest e) := by
  unfold Jobs.fenceTest
  split
  · next g rest hf hq => exact (h.dequeue (by rw [hq]; exact List.dropWhile_sublist _)).spaceTest
  · exact h

theorem Jobs.Trims.itemsLeft (h : Jobs.Trims j0 j) : Jobs.Trims j0 (j.itemsLeft e) := h.fenceTest.spaceTest

theorem Jobs.Trims.restAfter (x : QueueItem) (h : Jobs.Trims j0 j) : Jobs.Trims j0 (j.restAfter e x) := by
  unfold Jobs.restAfter
  split
  · split
    · exact (h.updateAct _ (fun a => { a with rest := none }) fun _ _ => id).same
    · exact h
  · exact h

theorem Jobs.Trims.removed (x : QueueItem) (h : Jobs.Trims j0 j) : Jobs.Trims j0 (j.removed e x) := by
  cases x with
  | cmd i a o => exact (h.cancel o i a).restAfter _
  | fence g => exact h

theorem Jobs.Trims.evictTail (h : Jobs.Trims j0 j) : Jobs.Trims j0 (j.evictTail e) := by
  unfold Jobs.evictTail
  split
  · exact h
  · split
    · exact h
    · exact ((h.dequeue (List.dropLast_sublist _)).removed _).itemsLeft

theorem Jobs.Trims.evict (n : Nat) (h : Jobs.Trims j0 j) : Jobs.Trims j0 (Jobs.evict e n j) := by
  induction n generalizing j with
  | zero => exact h
  | succ n ih =>
    unfold Jobs.evict
    split
    · exact h
    · exact ih h.evictTail

theorem Jobs.Trims.withdrawOperator (i : Nat) (h : Jobs.Trims j0 j) : Jobs.Trims j0 (j.withdrawOperator e i) := by
  unfold Jobs.withdrawOperator
  split
  · exact h
  · split <;> exact h.same

theorem Jobs.Trims.startRest (i : Nat) (h : Jobs.Trims j0 j) : Jobs.Trims j0 (j.startRest e i) := by
  unfold Jobs.startRest
  split
  · exact h
  · exact (h.updateAct i (fun a => { a with rest := e.after e.set.general.minRest }) fun _ _ => id).same

theorem Jobs.Trims.afterQueued (i : Nat) (a : Action) (h : Jobs.Trims j0 j) : Jobs.Trims j0 (j.afterQueued e i a) := by
  unfold Jobs.afterQueued
  split
  · exact (h.startRest i).withdrawOperator i
  · exact h

theorem Jobs.Trims.tellHold (i : Nat) (b : Bool) (h : Jobs.Trims j0 j) : Jobs.Trims j0 (j.tellHold e i b) := by
  unfold Jobs.tellHold
  split <;> exact h.same

/-- R69, R79: a hold that the guard ends parks nothing and queues nothing. -/
theorem Jobs.Trims.endHold_guard (i : Nat) (h : Jobs.Trims j0 j) : Jobs.Trims j0 (j.endHold e .guard i) := by
  unfold Jobs.endHold
  split
  · exact h
  · have hj := ((h.updateAct i (fun a => { a with hold := none, parked := none }) (fun _ _ => nofun)).tele' (e := e) (fun v t =>
      t.postNotice v (.holdEnded i HoldEnd.guard.code))).tellHold (e := e) i false
    dsimp only
    split
    · exact hj
    · exact hj.cancel ..

/-- R69: the removals for one actuator of a guard group leave no command for it. -/
theorem Jobs.trims_clearFor (e : Env) (i : Nat) (j : Jobs) :
    Jobs.Trims { j with queue := j.queue.filter (fun x => !x.isFor i) } (j.clearFor e i) := by
  unfold Jobs.clearFor
  dsimp only
  have hf := Jobs.Trims.foldl (fun j x => if x.isGuard then j else j.removed e x) (j.queue.filter (fun x => x.isFor i))
    (fun x hx => by split; exacts [hx, hx.removed x]) (Jobs.Trims.refl { j with queue := j.queue.filter (fun x => !x.isFor i) })
  refine Jobs.Trims.endHold_guard i ?_
  split
  · exact hf
  · exact hf.itemsLeft

theorem Jobs.Trims.clearFor (i : Nat) (h : Jobs.Trims j0 j) : Jobs.Trims j0 (j.clearFor e i) :=
  (h.dequeue List.filter_sublist).trans (Jobs.trims_clearFor e i j)

theorem Jobs.Trims.clearForAll (l : List Ask) (h : Jobs.Trims j0 j) : Jobs.Trims j0 (j.clearForAll e l) :=
  Jobs.Trims.foldl _ _ (fun x hx => by cases x; exacts [hx.clearFor _, hx]) h

theorem Jobs.Trims.groupQueued (l : List Ask) (h : Jobs.Trims j0 j) : Jobs.Trims j0 (j.groupQueued e l) :=
  Jobs.Trims.foldl _ _ (fun x hx => by cases x; exacts [hx.afterQueued .., hx]) h

/-- R69: once the commands of a group have been cleared for, none for an actuator of the group stands. -/
theorem Jobs.clearForAll_clears (e : Env) (l : List Ask) (j : Jobs) {i : Nat} (hi : i ∈ l.filterMap Ask.guardIdx)
    {x : QueueItem} (hx : x ∈ (j.clearForAll e l).queue) : x.isFor i = false := by
  induction l generalizing j with
  | nil => cases hi
  | cons y l ih =>
    cases y with
    | fence => exact ih j hi hx
    | cmd k a =>
      rcases List.mem_cons.mp hi with rfl | hi
      · have hsub := (((Jobs.Trims.refl _).clearForAll (e := e) (j := j.clearFor e i) l).queue.trans
          (Jobs.trims_clearFor e i j).queue).subset hx
        simpa using (List.mem_filter.mp hsub).2
      · exact ih _ hi hx

theorem Jobs.Trims.discordTest (h : Jobs.Trims j0 j) : Jobs.Trims j0 (j.discordTest e) := by
  rw [Jobs.discordTest_eq]
  have hj := Jobs.Trims.foldl Jobs.unmark (List.range Config.actuatorCount) (fun {k} i hi => by
    unfold Jobs.unmark
    split
    · exact hi.updateAct i (fun a => { a with discord := false }) fun _ _ => id
    · exact hi) h
  split
  · exact hj
  · exact hj.tele' _

/-! ## Eviction (R70) -/

/-- R70: while more than 16 items stand, of which at most 16 are the guard's, the tail gives one away. -/
theorem Jobs.evictTail_length (h : GuardFirst j.queue) (hg : j.queue.countP QueueItem.isGuard ≤ Config.queueMax)
    (hl : Config.queueMax < j.queue.length) : (j.evictTail e).queue.length < j.queue.length := by
  have hne : j.queue ≠ [] := fun hq => by rw [hq] at hl; cases hl
  have hsplit := List.dropLast_append_getLast hne
  have hlast : (j.queue.getLast hne).isGuard = false := by
    cases hx : (j.queue.getLast hne).isGuard with
    | false => rfl
    | true =>
      have hall : ∀ y ∈ j.queue, y.isGuard = true := by
        intro y hy
        rw [← hsplit] at h hy
        rcases List.mem_append.mp hy with hy | hy
        · exact (List.pairwise_append.mp h).2.2 y hy _ (List.mem_singleton_self _) hx
        · rw [List.mem_singleton.mp hy]; exact hx
      rw [List.countP_eq_length.mpr hall] at hg
      omega
  unfold Jobs.evictTail
  rw [List.getLast?_eq_some_getLast hne]
  dsimp only
  rw [if_neg (by rw [hlast]; decide)]
  have ht := (((Jobs.Trims.refl { j with queue := j.queue.dropLast }).removed (e := e) (j.queue.getLast hne)).itemsLeft
    (e := e)).queue.length_le
  have hd : j.queue.dropLast.length = j.queue.length - 1 := List.length_dropLast
  have hd' : ({ j with queue := j.queue.dropLast } : Jobs).queue.length = j.queue.length - 1 := hd
  omega

theorem Jobs.evict_length (n : Nat) (h : GuardFirst j.queue) (hg : j.queue.countP QueueItem.isGuard ≤ Config.queueMax)
    (hl : j.queue.length ≤ Config.queueMax + n) : (Jobs.evict e n j).queue.length ≤ Config.queueMax := by
  induction n generalizing j with
  | zero => exact hl
  | succ n ih =>
    unfold Jobs.evict
    split
    · assumption
    · next hmore =>
      have ht : Jobs.Trims j (j.evictTail e) := (Jobs.Trims.refl j).evictTail
      have hshort := Jobs.evictTail_length (e := e) h hg (Nat.lt_of_not_le hmore)
      exact ih (h.sublist ht.queue) ((ht.queue.countP_le).trans hg) (by omega)

/-! ## Guard groups (R69, R70) -/

/-- R109, R118: the commands of a group are for different actuators, pumps and valves in use. -/
structure GroupSound (set : Settings) (group : List Ask) : Prop where
  nodup : (group.filterMap Ask.guardIdx).Nodup
  guarded : ∀ i ∈ group.filterMap Ask.guardIdx, (set.act i).guarded = true

/-- R60, R69: in a queue in which a sound group has been placed there is room for the guard's items. -/
theorem countP_guard_placeGroup (group : List Ask) {q : List QueueItem} (hq : GuardFirst q)
    (hok : actuatorsOk set.actuators = true) (hn : ((placeGroup group q).filterMap QueueItem.guardIdx).Nodup)
    (hg : ∀ i ∈ (placeGroup group q).filterMap QueueItem.guardIdx, (set.act i).guarded = true) :
    (placeGroup group q).countP QueueItem.isGuard ≤ Config.queueMax := by
  have four := Settings.guarded_nodup_le hok hn hg
  have apart := (placeGroup_apart group hq).left_of_append
  have others : (q.dropWhile QueueItem.isGuard).countP QueueItem.isGuard = 0 :=
    List.countP_eq_zero.mpr fun x hx => by simp [(guardFirst_iff q).mp hq x hx]
  have hlen := length_le_of_apart (fun _ => isGuard_of_mem_guardPart) apart
  have hle : (q.dropWhile QueueItem.isGuard).filterMap QueueItem.guardIdx = [] :=
    filterMap_guardIdx_of_none ((guardFirst_iff q).mp hq)
  rw [placeGroup_eq, List.filterMap_append, hle, List.append_nil] at four
  rw [placeGroup_eq, List.countP_append, others, List.countP_eq_length.mpr fun _ => isGuard_of_mem_guardPart]
  show _ ≤ 16
  split at hlen <;> omega

theorem Jobs.QueueSound.guardGroup {group : List Ask} (hg : GroupSound e.set group) (h : Jobs.QueueSound e.set j) :
    Jobs.QueueSound e.set (j.guardGroup e group) := by
  unfold Jobs.guardGroup
  split
  · exact h
  · have hc : Jobs.QueueSound e.set (j.clearForAll e group) := h.trims ((Jobs.Trims.refl j).clearForAll group)
    have hclear := fun i (hi : i ∈ group.filterMap Ask.guardIdx) x => Jobs.clearForAll_clears e group j hi (x := x)
    dsimp only
    generalize j.clearForAll e group = k at hc hclear
    have hidx := filterMap_guardIdx_placeGroup group hc.first
    have hnodup : ((placeGroup group k.queue).filterMap QueueItem.guardIdx).Nodup := by
      rw [hidx]
      refine List.Nodup.append hc.nodup hg.nodup fun i hi hgi => ?_
      obtain ⟨x, hx, hxi⟩ := List.mem_filterMap.mp hi
      have := hclear i hgi x hx
      rw [isFor_of_guardIdx hxi] at this
      cases this
    have hguarded : ∀ i ∈ (placeGroup group k.queue).filterMap QueueItem.guardIdx, (e.set.act i).guarded = true := by
      intro i hi
      rw [hidx] at hi
      exact (List.mem_append.mp hi).elim (hc.guarded i) (hg.guarded i)
    have hfirst := guardFirst_placeGroup group hc.first
    have hroom := Jobs.evict_length (e := e) (j := { k with queue := placeGroup group k.queue })
      (placeGroup group k.queue).length hfirst (countP_guard_placeGroup group hc.first hc.table hnodup hguarded) (by simp)
    have ht : Jobs.Trims { k with queue := placeGroup group k.queue } (Jobs.evict e (placeGroup group k.queue).length
        { k with queue := placeGroup group k.queue }) := (Jobs.Trims.refl _).evict _
    have hevicted : Jobs.QueueSound e.set (Jobs.evict e (placeGroup group k.queue).length
        { k with queue := placeGroup group k.queue }) :=
      ⟨hroom, hfirst.sublist ht.queue, hnodup.sublist (ht.queue.filterMap _),
        fun i hi => hguarded i ((ht.queue.filterMap _).subset hi), fun i x hx => hc.parked i x (ht.parked i x hx), hc.table⟩
    exact hevicted.trims ((Jobs.Trims.refl _).groupQueued group).itemsLeft

/-! ## What adds an item (R68, R79) -/

/-- R67: an item that is no guard item joins the tail, where there is room. -/
theorem Jobs.QueueSound.join {x : QueueItem} (hx : x.isGuard = false) (h : Jobs.QueueSound set j) :
    Jobs.QueueSound set (j.join x).1 := by
  have hi : ∀ q : List QueueItem, (q ++ [x]).filterMap QueueItem.guardIdx = q.filterMap QueueItem.guardIdx := fun q => by
    rw [List.filterMap_append, filterMap_guardIdx_of_none (q := [x]) (by simpa using hx), List.append_nil]
  unfold Jobs.join
  split
  · next hl =>
    refine ⟨?_, h.first.snoc hx, (hi j.queue).symm ▸ h.nodup, fun i hm => h.guarded i (hi j.queue ▸ hm), h.parked, h.table⟩
    show (j.queue ++ [x]).length ≤ _
    rw [List.length_append]
    exact hl
  · exact h

/-- The two outcomes of an operation that says whether it went through. -/
theorem Jobs.QueueSound.of_eq {α : Type} {p : Jobs × α} {b : α} (hp : p = (j', b)) (h : Jobs.QueueSound set p.1) :
    Jobs.QueueSound set j' := by subst hp; exact h

/-- A run of items in which the first command for an actuator is replaced: each item stands, or gives its place. -/
theorem replaceFor_split (i : Nat) (item : QueueItem) (l : List QueueItem) {old : QueueItem}
    (h : l.find? (fun x => x.isFor i) = some old) : ∃ a c, l = a ++ old :: c ∧ replaceFor i item l = a ++ item :: c := by
  induction l with
  | nil => cases h
  | cons x l ih =>
    unfold replaceFor
    cases hx : x.isFor i with
    | true =>
      rw [List.find?_cons_of_pos hx] at h
      cases h
      exact ⟨[], l, rfl, by simp⟩
    | false =>
      rw [List.find?_cons_of_neg (by simp [hx])] at h
      obtain ⟨a, c, rfl, hr⟩ := ih h
      exact ⟨x :: a, c, rfl, by simp [hr]⟩

theorem replaceLast_split {i : Nat} (item : QueueItem) {q : List QueueItem} {old : QueueItem}
    (h : (lastSegment q).find? (fun x => x.isFor i) = some old) :
    ∃ a c, q = a ++ old :: c ∧ replaceLast i item q = a ++ item :: c := by
  have hrev : q.reverse.find? (fun x => x.isFor i) = some old := by
    rw [← List.takeWhile_append_dropWhile (p := fun x : QueueItem => !x.isFence) (l := q.reverse), List.find?_append]
    rw [show q.reverse.takeWhile (fun x => !x.isFence) = lastSegment q from rfl, h]
    rfl
  obtain ⟨a, c, hq, hr⟩ := replaceFor_split i item _ hrev
  refine ⟨c.reverse, a.reverse, ?_, ?_⟩
  · rw [← q.reverse_reverse, hq]; simp
  · rw [replaceLast, hr]; simp

/-- R68: a command that is not the guard's gives its place to one that is not the guard's either. -/
theorem Jobs.QueueSound.replace {i : Nat} {item old : QueueItem} (hi : item.isGuard = false) (ho : old.isGuard = false)
    (hf : (lastSegment j.queue).find? (fun x => x.isFor i) = some old) (h : Jobs.QueueSound set j) :
    Jobs.QueueSound set { j with queue := replaceLast i item j.queue } := by
  obtain ⟨a, c, hq, hr⟩ := replaceLast_split item hf
  have hidx : (replaceLast i item j.queue).filterMap QueueItem.guardIdx = j.queue.filterMap QueueItem.guardIdx := by
    rw [hr, hq]
    simp [List.filterMap_append, guardIdx_of_isGuard hi, guardIdx_of_isGuard ho]
  refine ⟨?_, ?_, hidx ▸ h.nodup, fun k hk => h.guarded k (hidx ▸ hk), h.parked, h.table⟩
  · have hroom := h.room
    rw [hq] at hroom
    show (replaceLast i item j.queue).length ≤ _
    rw [hr]
    simpa using hroom
  · have hfirst := h.first
    rw [hq] at hfirst
    show GuardFirst (replaceLast i item j.queue)
    rw [hr]
    simpa [GuardFirst, List.pairwise_append, hi, ho] using hfirst

theorem Jobs.QueueSound.place {o : Origin} (ho : o ≠ .guard) (i : Nat) (a : Action) (h : Jobs.QueueSound set j) :
    Jobs.QueueSound set (j.place e o i a).1 := by
  have hcmd : (QueueItem.cmd i a o).isGuard = false := by simpa [QueueItem.isGuard] using ho
  unfold Jobs.place
  split
  · next k old was hf =>
    split
    · exact h.trims ((Jobs.Trims.refl j).tellOrigin ..)
    · split
      · split
        · next hj => exact ((h.join rfl).of_eq hj).join hcmd
        · next hj => exact (h.join rfl).of_eq hj
      · next hw =>
        have hr := h.replace hcmd (by simpa [QueueItem.isGuard] using hw) hf
        dsimp only
        refine hr.trims (Jobs.Trims.restAfter _ ?_)
        split
        · exact (Jobs.Trims.refl _).tellOrigin ..
        · split
          · exact .refl _
          · exact (Jobs.Trims.refl _).cancel ..
  · exact h.join hcmd

theorem Jobs.QueueSound.enqueue {o : Origin} (ho : o ≠ .guard) (i : Nat) (a : Action) (h : Jobs.QueueSound set j) :
    Jobs.QueueSound set (j.enqueue e o i a).1 := by
  unfold Jobs.enqueue
  split
  · next hp => exact ((h.place ho i a).of_eq hp).trims ((Jobs.Trims.refl _).afterQueued ..)
  · next hp => exact (h.place ho i a).of_eq hp

theorem Jobs.QueueSound.enqueueEvicting (i : Nat) (a : Action) (n : Nat) (h : Jobs.QueueSound set j) :
    Jobs.QueueSound set (Jobs.enqueueEvicting e i a n j).1 := by
  induction n generalizing j with
  | zero => exact h.enqueue (by decide) i a
  | succ n ih =>
    unfold Jobs.enqueueEvicting
    split
    · next hp => exact (h.enqueue (by decide) i a).of_eq hp
    · exact ih (h.trims (Jobs.Trims.refl j).evictTail)

/-- R79: a request that is not the guard's is parked. -/
theorem Jobs.QueueSound.park {o : Origin} (ho : o ≠ .guard) (i : Nat) (a : Action) (h : Jobs.QueueSound set j) :
    Jobs.QueueSound set (j.updateAct i (fun r => { r with parked := some (a, o) })) := by
  refine ⟨h.room, h.first, h.nodup, h.guarded, fun k x hx => ?_, h.table⟩
  rcases j.act_updateAct i k (fun r => { r with parked := some (a, o) }) with hk | hk <;> rw [hk] at hx
  · exact h.parked k x hx
  · cases hx; exact ho

theorem Jobs.QueueSound.take {o : Origin} (ho : o ≠ .guard) (i : Nat) (a : Action) (h : Jobs.QueueSound set j) :
    Jobs.QueueSound set (j.take e o i a).1 := by
  unfold Jobs.take
  split
  · exact h.trims ((Jobs.Trims.refl j).tellOrigin ..)
  · split
    · exact (h.park ho i a).trims ((Jobs.Trims.refl _).tellOrigin ..)
    · split
      · exact h.trims ((Jobs.Trims.refl j).refuse ..)
      · have hq : Jobs.QueueSound set (if o == .allotment then Jobs.enqueueEvicting e i a Config.queueMax j
            else j.enqueue e o i a).1 := by
          split
          · exact h.enqueueEvicting ..
          · exact h.enqueue ho i a
        split
        · next hp => exact hq.of_eq hp
        · next j' hp =>
          exact (hq.of_eq hp).trims (((Jobs.Trims.refl j').tele' _).refuse ..)

theorem Jobs.Trims.refuseRest (o : Origin) (l : List Ask) (h : Jobs.Trims j0 j) :
    Jobs.Trims j0 (Jobs.refuseRest e o l j) := by
  induction l generalizing j with
  | nil => exact h
  | cons x l ih =>
    cases x with
    | cmd i a => exact ih (h.refuse ..)
    | fence => exact ih h

theorem Jobs.QueueSound.request {o : Origin} (ho : o ≠ .guard) (l : List Ask) (h : Jobs.QueueSound set j) :
    Jobs.QueueSound set (Jobs.request e o l j) := by
  induction l generalizing j with
  | nil => exact h
  | cons x l ih =>
    cases x with
    | cmd i a =>
      unfold Jobs.request
      split
      · next hp => exact ((h.take ho i a).of_eq hp).trims ((Jobs.Trims.refl _).refuseRest ..)
      · next hp => exact ih ((h.take ho i a).of_eq hp)
    | fence =>
      unfold Jobs.request
      split
      · next hp => exact ih (((h.join rfl).of_eq hp).trims (Jobs.Trims.refl _).fenceTest)
      · next j' hp =>
        exact ((h.join rfl).of_eq hp).trims (((Jobs.Trims.refl j').tele' _).refuseRest ..)

/-- R79: a hold that ends hands its parked request on, which is not the guard's. -/
theorem Jobs.QueueSound.endHold (c : HoldEnd) (i : Nat) (h : Jobs.QueueSound set j) :
    Jobs.QueueSound set (j.endHold e c i) := by
  have hj : Jobs.QueueSound set (((j.updateAct i (fun a => { a with hold := none, parked := none })).notice e
      (.holdEnded i c.code)).tellHold e i false) :=
    h.trims ((((Jobs.Trims.refl j).updateAct i (fun a => { a with hold := none, parked := none })
      (fun _ _ => nofun)).tele' _).tellHold i false)
  unfold Jobs.endHold
  split
  · exact h
  · dsimp only
    split
    · exact hj
    · next a o hp =>
      split
      · exact hj.trims ((Jobs.Trims.refl _).cancel ..)
      · exact hj.take (h.parked i (a, o) hp) i a

end Sys2Proof.Machine
end

section
/-!
PROOFS. The tellings of a settling keep the Command Queue sound: the blocks queue their requests with origins other than the guard's,
and the guard queues groups for different pumps and valves in use (R69, R109).
The proofs are elaborated one after the other, which keeps the whole text inside the sandbox's memory.
-/

set_option Elab.async false

namespace Sys2Proof.Machine

variable {set : Settings} {e : Env} {j j' : Jobs}

/-! ## The guard's groups (R109, R110, R115) -/

theorem firstWhere_holds {α : Type} {p : α → Bool} {l : List α} {n : Nat} (d : α) (h : firstWhere p l = some n) :
    p (l.getD n d) = true := by
  induction l generalizing n with
  | nil => cases h
  | cons x l ih =>
    unfold firstWhere at h
    split at h
    · next hx => cases h; exact hx
    · obtain ⟨k, hk, rfl⟩ := Option.map_eq_some_iff.mp h
      exact ih hk

theorem Settings.pump_spec {n i : Nat} (h : set.pump n = some i) :
    (set.act i).inUse = true ∧ (set.act i).kind = .pump ∧ (set.head (set.act i).address).role = n := by
  have hp := firstWhere_holds .factory h
  simp only [Bool.and_eq_true, beq_iff_eq] at hp
  obtain ⟨⟨⟨⟨huse, hkind⟩, -⟩, -⟩, hrole⟩ := hp
  exact ⟨huse, hkind, hrole⟩

theorem Settings.inlet_spec {i : Nat} (h : set.inlet = some i) :
    (set.act i).inUse = true ∧ (set.act i).kind = .valveInlet := by
  have hp := firstWhere_holds .factory h
  simp only [Bool.and_eq_true, beq_iff_eq] at hp
  exact hp

theorem Settings.drain_spec {i : Nat} (h : set.drain = some i) :
    (set.act i).inUse = true ∧ (set.act i).kind = .valveDrain := by
  have hp := firstWhere_holds .factory h
  simp only [Bool.and_eq_true, beq_iff_eq] at hp
  exact hp

/-- R110: the actuators that a trip commands: pump 1, pump 2, the inlet valve and the drain valve, those of them that there are. -/
def Settings.guardTargets (s : Settings) : List Nat := [s.pump 1, s.pump 2, s.inlet, s.drain].filterMap id

theorem Settings.guardTargets_eq (s : Settings) :
    s.guardTargets = ((s.pump 1).toList ++ (s.pump 2).toList) ++ (s.inlet.toList ++ s.drain.toList) := by
  have cons : ∀ (o : Option Nat) (l : List (Option Nat)), (o :: l).filterMap id = o.toList ++ l.filterMap id := fun o l => by
    cases o <;> rfl
  simp only [Settings.guardTargets, cons, List.filterMap_nil, List.append_nil, List.append_assoc]

theorem Settings.guardTargets_guarded (s : Settings) : ∀ i ∈ s.guardTargets, (s.act i).guarded = true := by
  have pump : ∀ n i, s.pump n = some i → (s.act i).guarded = true := fun n i h => by
    simp [ActSettings.guarded, Settings.pump_spec h]
  intro i hi
  simp only [Settings.guardTargets, List.mem_filterMap, List.mem_cons, List.not_mem_nil, or_false, id] at hi
  obtain ⟨o, ho, rfl⟩ := hi
  rcases ho with ho | ho | ho | ho
  · exact pump 1 i ho.symm
  · exact pump 2 i ho.symm
  · simp [ActSettings.guarded, Settings.inlet_spec ho.symm]
  · simp [ActSettings.guarded, Settings.drain_spec ho.symm]

theorem Settings.guardTargets_nodup (s : Settings) : s.guardTargets.Nodup := by
  have pumps : ∀ i, s.pump 1 = some i → s.pump 2 ≠ some i := fun i h h' => by
    have := (Settings.pump_spec h).2.2.symm.trans (Settings.pump_spec h').2.2
    omega
  have inlet : ∀ n i, s.pump n = some i → s.inlet ≠ some i := fun n i h h' => by
    have := (Settings.pump_spec h).2.1.symm.trans (Settings.inlet_spec h').2
    cases this
  have drain : ∀ n i, s.pump n = some i → s.drain ≠ some i := fun n i h h' => by
    have := (Settings.pump_spec h).2.1.symm.trans (Settings.drain_spec h').2
    cases this
  have valves : ∀ i, s.inlet = some i → s.drain ≠ some i := fun i h h' => by
    have := (Settings.inlet_spec h).2.symm.trans (Settings.drain_spec h').2
    cases this
  refine List.pairwise_filterMap.mpr ?_
  simp only [List.pairwise_cons, List.mem_cons, List.not_mem_nil, or_false, id, List.Pairwise.nil, and_true,
    forall_eq_or_imp, forall_eq]
  refine ⟨⟨?_, ?_, ?_⟩, ⟨?_, ?_⟩, ?_, nofun⟩
  all_goals rintro i hi k hk rfl
  exacts [pumps i hi hk, inlet 1 i hi hk, drain 1 i hi hk, inlet 2 i hi hk, drain 2 i hi hk, valves i hi hk]

/-- A group whose commands are for some of the guard's actuators, in their order. -/
theorem GroupSound.of_targets {group : List Ask} (h : (group.filterMap Ask.guardIdx).Sublist set.guardTargets) :
    GroupSound set group :=
  ⟨set.guardTargets_nodup.sublist h, fun i hi => set.guardTargets_guarded i (h.subset hi)⟩

theorem guardItem_targets (s : Settings) (i : Option Nat) (a : Action) :
    ((s.guardItem i a).filterMap Ask.guardIdx).Sublist i.toList := by
  cases i with
  | none => exact List.Sublist.refl _
  | some i =>
    unfold Settings.guardItem
    dsimp only
    split
    · exact List.nil_sublist _
    · exact List.Sublist.refl _

theorem fenced_targets (before after : List Ask) :
    (fenced before after).filterMap Ask.guardIdx = before.filterMap Ask.guardIdx ++ after.filterMap Ask.guardIdx := by
  have fence : ∀ l, (Ask.fence :: l).filterMap Ask.guardIdx = l.filterMap Ask.guardIdx := fun _ => rfl
  unfold fenced
  split <;> simp [List.filterMap_append, fence]

theorem pumpsOff_targets (s : Settings) :
    (s.pumpsOff.filterMap Ask.guardIdx).Sublist ((s.pump 1).toList ++ (s.pump 2).toList) := by
  unfold Settings.pumpsOff
  rw [List.filterMap_append]
  exact (guardItem_targets ..).append (guardItem_targets ..)

theorem groupSound_inhibit (s : Settings) : GroupSound s s.inhibitGroup := by
  refine .of_targets ?_
  rw [Settings.inhibitGroup, fenced_targets, s.guardTargets_eq]
  exact (pumpsOff_targets s).append ((guardItem_targets ..).trans (List.sublist_append_left ..))

theorem groupSound_trip (s : Settings) (d : Bool) : GroupSound s (s.tripGroup d) := by
  refine .of_targets ?_
  rw [Settings.tripGroup, fenced_targets, List.filterMap_append, s.guardTargets_eq]
  exact (pumpsOff_targets s).append ((guardItem_targets ..).append (guardItem_targets ..))

theorem groupSound_nil (s : Settings) : GroupSound s [] := .of_targets (List.nil_sublist _)

theorem groupSound_bandGroup (e : Env) (j : Jobs) : GroupSound e.set (j.bandGroup e) := by
  unfold Jobs.bandGroup
  split
  · split <;> exact groupSound_trip ..
  · split
    · exact groupSound_inhibit _
    · exact groupSound_nil _

theorem groupSound_drain (s : Settings) (a : Action) : GroupSound s (s.guardItem s.drain a) := by
  refine .of_targets ?_
  rw [s.guardTargets_eq]
  exact (guardItem_targets ..).trans ((List.sublist_append_right ..).trans (List.sublist_append_right ..))

theorem groupSound_blindGroup (e : Env) (j : Jobs) : GroupSound e.set (j.blindGroup e) := by
  refine .of_targets ?_
  rw [e.set.guardTargets_eq]
  exact (List.filter_sublist.filterMap _).trans ((pumpsOff_targets _).trans (List.sublist_append_left ..))

/-- R111: the group that keeps one demand. -/
theorem groupSound_demanded {x : Nat × Action} (h : x ∈ j.demanded e) : GroupSound e.set [.cmd x.1 x.2] := by
  have item : ∀ {i : Option Nat} {a : Action}, i ∈ [e.set.pump 1, e.set.pump 2, e.set.inlet, e.set.drain] →
      x ∈ (e.set.guardItem i a).filterMap Ask.command → x.1 ∈ e.set.guardTargets := by
    intro i a hi hx
    unfold Settings.guardItem at hx
    split at hx
    · cases hx
    · next k =>
      split at hx
      · cases hx
      · have hxk : x = (k, a) := by simpa [Ask.command] using hx
        exact List.mem_filterMap.mpr ⟨some k, hi, by rw [hxk]; rfl⟩
  have target : x.1 ∈ e.set.guardTargets := by
    unfold Jobs.demanded at h
    rcases List.mem_append.mp h with h | h
    · rcases List.mem_append.mp h with h | h
      · split at h
        · exact (List.mem_append.mp h).elim (item (by simp)) (item (by simp))
        · cases h
      · split at h
        · exact item (by simp) h
        · cases h
    · split at h
      · cases h
      · exact item (by simp) h
  exact ⟨List.nodup_singleton _, fun i hi => by
    rw [List.mem_singleton.mp hi]
    exact e.set.guardTargets_guarded _ target⟩

/-! ## Power allotment (spec/08) -/

theorem Jobs.QueueSound.keep (k : CondKind) (b : Bool) (h : Jobs.QueueSound set j) : Jobs.QueueSound set (j.keep e k b) := by
  unfold Jobs.keep
  split <;> exact h.tele' _

theorem Jobs.QueueSound.updateRun (n : Nat) (f : Run → Run) (h : Jobs.QueueSound set j) :
    Jobs.QueueSound set (j.updateRun n f) := by
  unfold Jobs.updateRun
  split <;> exact h.same

theorem Jobs.QueueSound.pumpPosted (n : Nat) (h : Jobs.QueueSound set j) : Jobs.QueueSound set (j.pumpPosted e n) := by
  unfold Jobs.pumpPosted
  split <;> exact h.same

theorem Jobs.QueueSound.postFill (n : Nat) (c : ClaimClass) (u : Nat) (h : Jobs.QueueSound set j) :
    Jobs.QueueSound set (j.postFill e n c u) := (h.same (j' := j.updateClaim ..)).pumpPosted n

theorem Jobs.QueueSound.postZone (z : Nat) (c : ClaimClass) (u : Nat) (h : Jobs.QueueSound set j) :
    Jobs.QueueSound set (j.postZone z c u) := by
  unfold Jobs.postZone
  dsimp only
  split <;> exact h.same

theorem Jobs.QueueSound.stopOverdrawn (n : Nat) (h : Jobs.QueueSound set j) :
    Jobs.QueueSound set (j.stopOverdrawn e n) := by
  unfold Jobs.stopOverdrawn
  split
  · exact h
  · exact h.request (by decide) _

theorem Jobs.QueueSound.tellTotal (n : Nat) (h : Jobs.QueueSound set j) : Jobs.QueueSound set (j.tellTotal e n) := by
  unfold Jobs.tellTotal
  split
  · exact h
  · exact h.tele' _

theorem Jobs.QueueSound.tell (evs : List Event) (h : Jobs.QueueSound set j) : Jobs.QueueSound set (j.tell evs) := h.same

theorem Jobs.QueueSound.grantAll (h : Jobs.QueueSound set j) : Jobs.QueueSound set (j.grantAll e) := by
  have pumps : Jobs.QueueSound set ((j.refreshPump e 1).refreshPump e 2) := h.same
  unfold Jobs.grantAll
  exact pumps.same

theorem Jobs.QueueSound.pass (h : Jobs.QueueSound set j) : Jobs.QueueSound set (j.pass e) :=
  ((((h.grantAll.stopOverdrawn 1).stopOverdrawn 2).tell _).tellTotal _).keep _ _

theorem Jobs.QueueSound.deriveCap (h : Jobs.QueueSound set j) : Jobs.QueueSound set (j.deriveCap e) := by
  unfold Jobs.deriveCap
  split <;> exact h.same

theorem Jobs.QueueSound.incumbents (h : Jobs.QueueSound set j) : Jobs.QueueSound set (j.incumbents e) := by
  have follow : ∀ (n : Nat) {k : Jobs}, Jobs.QueueSound set k → Jobs.QueueSound set (k.followIncumbent e n) :=
    fun n k hk => hk.same (k.followIncumbent_frame e n).1 (k.followIncumbent_frame e n).2.1
  exact follow 2 (follow 1 h)

theorem Jobs.QueueSound.powerResult (i : Nat) (r : CmdResult) (h : Jobs.QueueSound set j) :
    Jobs.QueueSound set (j.powerResult e i r) := by
  unfold Jobs.powerResult
  split
  · split
    · exact h
    · split
      · exact h.request (by decide) _
      · exact h
  · exact h

theorem Jobs.QueueSound.operatorResult (i : Nat) (a : Action) (r : CmdResult) (h : Jobs.QueueSound set j) :
    Jobs.QueueSound set (j.operatorResult e i a r) := by
  unfold Jobs.operatorResult
  split
  · exact h.trims ((Jobs.Trims.refl j).withdrawOperator i)
  · exact h

/-! ## Fill controller (spec/05) -/

theorem Jobs.QueueSound.startRun (n : Nat) (h : Jobs.QueueSound set j) : Jobs.QueueSound set (j.startRun e n) := by
  unfold Jobs.startRun
  split
  · exact h
  · exact ((h.updateRun ..).same (j' := Jobs.plan ..)).request (by decide) _

theorem Jobs.QueueSound.endRun (n : Nat) (h : Jobs.QueueSound set j) : Jobs.QueueSound set (j.endRun e n) := by
  unfold Jobs.endRun
  dsimp only
  split
  · exact h.updateRun ..
  · exact ((h.updateRun ..).same (j' := Jobs.plan ..)).request (by decide) _

theorem Jobs.QueueSound.endRunning (h : Jobs.QueueSound set j) : Jobs.QueueSound set (j.endRunning e) := by
  unfold Jobs.endRunning
  split
  · exact h
  · exact h.endRun _

theorem Jobs.QueueSound.fillCommanded (h : Jobs.QueueSound set j) : Jobs.QueueSound set (j.fillCommanded e) := by
  unfold Jobs.fillCommanded
  split
  · exact h
  · split
    · exact h
    · split
      · exact h.endRun _
      · exact h

theorem Jobs.QueueSound.plan (f : FillPlan → FillPlan) (h : Jobs.QueueSound set j) : Jobs.QueueSound set (j.plan f) := h.same

theorem Jobs.QueueSound.followWindow (h : Jobs.QueueSound set j) : Jobs.QueueSound set (j.followWindow e) := by
  have ends : Jobs.QueueSound set (j.windowEnd e) := by
    unfold Jobs.windowEnd
    refine Jobs.QueueSound.plan _ ?_
    split
    · exact (h.plan _).tele' _
    · exact h
  have starts : ∀ {k : Jobs}, Jobs.QueueSound set k → Jobs.QueueSound set (k.windowStart e) := fun hk => by
    unfold Jobs.windowStart
    dsimp only
    split
    · exact ((hk.plan _).plan _).tele' _
    · exact hk.plan _
  unfold Jobs.followWindow
  split
  · exact h
  · exact starts ends

theorem Jobs.QueueSound.markRow (c : Choice) (h : Jobs.QueueSound set j) : Jobs.QueueSound set (j.markRow e c) := by
  unfold Jobs.markRow
  split <;> exact h.same

theorem Jobs.QueueSound.postClaims (h : Jobs.QueueSound set j) : Jobs.QueueSound set (j.postClaims e) := by
  have post : ∀ {p : Prop} [Decidable p] (n : Nat) (c : ClaimClass) (u : Nat) {k : Jobs}, Jobs.QueueSound set k →
      Jobs.QueueSound set (if p then k.postFill e n c u else k.postFill e n .none 0) := by
    intro p _ n c u k hk
    split <;> exact hk.postFill ..
  unfold Jobs.postClaims
  dsimp only
  split
  · exact post 2 _ _ (post 1 _ _ h)
  · exact post 1 _ _ (post 2 _ _ h)

theorem Jobs.QueueSound.startTest (h : Jobs.QueueSound set j) : Jobs.QueueSound set (j.startTest e) := by
  unfold Jobs.startTest
  split
  · exact h
  · split
    · exact h
    · split
      · exact (h.plan _).startRun _
      · exact h

theorem Jobs.QueueSound.askOwed (h : Jobs.QueueSound set j) : Jobs.QueueSound set (j.askOwed e) := by
  unfold Jobs.askOwed
  dsimp only
  split
  · exact h.plan _
  · exact Jobs.QueueSound.foldl _ _ (fun x _ hx => hx.request (by decide) _) (h.plan _)

/-- R90: the evaluation queues runs' starts and stops, with origin FILL. -/
theorem Jobs.QueueSound.fillEvaluate (b : Bool) (h : Jobs.QueueSound set j) : Jobs.QueueSound set (j.fillEvaluate e b) := by
  unfold Jobs.fillEvaluate
  dsimp only
  refine Jobs.QueueSound.keep _ _ (Jobs.QueueSound.keep _ _ ?_)
  have row := ((h.fillCommanded (e := e)).followWindow (e := e) |>.same (j' := Jobs.figure e _)).markRow (e := e)
    (((j.fillCommanded e).followWindow e).figure e |>.chooseRow e)
  have asked : ∀ {k : Jobs}, Jobs.QueueSound set k → Jobs.QueueSound set (if b then k.askOwed e else k) := by
    intro k hk
    split
    · exact hk.askOwed
    · exact hk
  refine asked (Jobs.QueueSound.startTest (Jobs.QueueSound.postClaims (Jobs.QueueSound.plan _ ?_)))
  split
  · exact row.endRunning
  · exact row

theorem Jobs.QueueSound.beginProving (n : Nat) (h : Jobs.QueueSound set j) : Jobs.QueueSound set (j.beginProving e n) := by
  unfold Jobs.beginProving
  split <;> exact h.updateRun ..

theorem Jobs.QueueSound.startResult (n : Nat) (a : Action) (r : CmdResult) (h : Jobs.QueueSound set j) :
    Jobs.QueueSound set (j.startResult e n a r) := by
  unfold Jobs.startResult
  split
  · exact (h.plan _).endRun _
  · split
    · exact h.beginProving _
    · exact h

theorem Jobs.QueueSound.startsResult (i : Nat) (a : Action) (r : CmdResult) (h : Jobs.QueueSound set j) :
    Jobs.QueueSound set (j.startsResult e i a r) := by
  unfold Jobs.startsResult
  dsimp only
  split
  · exact h.plan _
  · split
    · split
      · exact h.plan _
      · split
        · exact (h.plan _).startResult ..
        · exact h.plan _
    · exact h

theorem Jobs.QueueSound.stopsResult (i : Nat) (a : Action) (r : CmdResult) (h : Jobs.QueueSound set j) :
    Jobs.QueueSound set (j.stopsResult e i a r) := by
  unfold Jobs.stopsResult
  split
  · split <;> exact h.plan _
  · split
    · exact h.request (by decide) _
    · exact h

theorem Jobs.QueueSound.fillResult (i : Nat) (a : Action) (r : CmdResult) (h : Jobs.QueueSound set j) :
    Jobs.QueueSound set (j.fillResult e i a r) := by
  unfold Jobs.fillResult
  split
  · exact (h.startsResult ..).fillEvaluate _
  · exact (h.stopsResult ..).fillEvaluate _

theorem Jobs.QueueSound.flowAtRun (n f : Nat) (h : Jobs.QueueSound set j) : Jobs.QueueSound set (j.flowAtRun e n f) := by
  have learnt : Jobs.QueueSound set (if decide (e.set.general.minFlow ≤ f) then j.learnFlow f else j) := by
    split
    · exact h.plan _
    · exact h
  unfold Jobs.flowAtRun
  dsimp only
  generalize (if decide (e.set.general.minFlow ≤ f) then j.learnFlow f else j) = k at learnt
  split
  · split
    · exact (h.updateRun ..).plan _
    · exact h
  · split
    · split
      · split
        · exact learnt.updateRun ..
        · exact learnt
      · exact learnt.updateRun ..
    · exact h
  · exact h
  · exact h

theorem Jobs.QueueSound.fillInlet (f : Option Nat) (h : Jobs.QueueSound set j) : Jobs.QueueSound set (j.fillInlet e f) := by
  have ran : ∀ {k : Jobs}, Jobs.QueueSound set k → Jobs.QueueSound set (k.inletAtRun e f) := fun hk => by
    unfold Jobs.inletAtRun
    split
    · exact hk
    · exact hk.flowAtRun ..
    · split
      · exact hk.updateRun ..
      · exact hk
  unfold Jobs.fillInlet
  dsimp only
  split
  · exact (ran (h.plan _)).fillEvaluate _
  · exact ran (h.plan _)

theorem Jobs.QueueSound.fillFaults (h : Jobs.QueueSound set j) : Jobs.QueueSound set (j.fillFaults e) := by
  unfold Jobs.fillFaults
  refine Jobs.QueueSound.fillEvaluate _ ?_
  split
  · exact h
  · exact h.tele' _

theorem Jobs.QueueSound.fillDiscord (i : Nat) (h : Jobs.QueueSound set j) : Jobs.QueueSound set (j.fillDiscord e i) := by
  unfold Jobs.fillDiscord
  refine Jobs.QueueSound.fillEvaluate _ ?_
  split
  · exact h
  · split
    · exact h.endRun _
    · exact h

/-! ## Overflow guard (spec/06) -/

theorem Jobs.QueueSound.keepDemands (s : Option Nat) (h : Jobs.QueueSound e.set j) :
    Jobs.QueueSound e.set (j.keepDemands e s) := by
  unfold Jobs.keepDemands
  split
  · exact h
  · refine Jobs.QueueSound.foldl _ _ (fun x hx hk => ?_) h
    unfold Jobs.keepDemand
    split
    · exact hk.guardGroup (groupSound_demanded (List.mem_of_mem_filter hx))
    · exact hk

theorem Jobs.QueueSound.endReissue (h : Jobs.QueueSound e.set j) : Jobs.QueueSound e.set (j.endReissue e) := by
  unfold Jobs.endReissue
  split
  · exact (h.same (j' := Jobs.guarding ..)).guardGroup (groupSound_bandGroup ..)
  · exact h

theorem Jobs.QueueSound.queueGroups (a b c : Bool) (s : Option Nat) (h : Jobs.QueueSound e.set j) :
    Jobs.QueueSound e.set (j.queueGroups e a b c s) := by
  unfold Jobs.queueGroups
  refine Jobs.QueueSound.keepDemands _ (Jobs.QueueSound.endReissue ?_)
  split
  · exact (h.same (j' := Jobs.guarding ..)).guardGroup (groupSound_bandGroup ..)
  · split
    · refine h.guardGroup ?_
      split
      · exact groupSound_nil _
      · exact groupSound_drain ..
    · exact h

theorem Jobs.QueueSound.blindAction (h : Jobs.QueueSound e.set j) : Jobs.QueueSound e.set (j.blindAction e) :=
  (h.tele' _).guardGroup (groupSound_blindGroup ..)

theorem Jobs.QueueSound.blindTest (c : BlindCause) (h : Jobs.QueueSound e.set j) :
    Jobs.QueueSound e.set (j.blindTest e c) := by
  unfold Jobs.blindTest
  dsimp only
  split
  · exact h
  · exact h
  · split
    · split
      · exact h
      · exact h.blindAction
    · exact (h.same (j' := Jobs.guarding ..)).tele' _
  · split
    · exact h.blindAction
    · exact h

theorem Jobs.QueueSound.bandStep (h : Jobs.QueueSound set j) : Jobs.QueueSound set (j.bandStep e) := by
  unfold Jobs.bandStep
  dsimp only
  split <;> exact h.same

theorem Jobs.QueueSound.guardEvaluate (c : BlindCause) (h : Jobs.QueueSound e.set j) :
    Jobs.QueueSound e.set (j.guardEvaluate e c) := by
  have conditions : ∀ {k : Jobs}, Jobs.QueueSound e.set k → Jobs.QueueSound e.set (k.bandConditions e) := fun hk =>
    ((hk.keep ..).keep ..).keep ..
  unfold Jobs.guardEvaluate
  dsimp only
  split
  · exact (conditions (h.bandStep.queueGroups ..)).blindTest c
  · exact ((conditions (h.bandStep.queueGroups ..)).blindTest c).same

theorem Jobs.QueueSound.guardFloat (w : Option Bool) (h : Jobs.QueueSound e.set j) :
    Jobs.QueueSound e.set (j.guardFloat e w) := by
  unfold Jobs.guardFloat
  dsimp only
  split
  · exact h
  · exact (h.same (j' := Jobs.guarding ..)).guardEvaluate _

/-! ## Frost unit (spec/07) -/

theorem Jobs.QueueSound.updateZone (z : Nat) (f : Zone → Zone) (h : Jobs.QueueSound set j) :
    Jobs.QueueSound set (j.updateZone z f) := h.same

theorem Jobs.QueueSound.askDuty (z i t : Nat) (h : Jobs.QueueSound set j) : Jobs.QueueSound set (j.askDuty e z i t) := by
  unfold Jobs.askDuty Jobs.dutyTaken
  have hk := (h.updateZone z Zone.idle).take (e := e) (o := .frost) (by decide) i (.duty t)
  dsimp only
  split
  · exact hk.updateZone ..
  · exact hk

theorem Jobs.QueueSound.dutyRequest (z : Nat) (h : Jobs.QueueSound set j) : Jobs.QueueSound set (j.dutyRequest e z) := by
  unfold Jobs.dutyRequest
  split
  · exact h
  · dsimp only
    split
    · exact h.askDuty ..
    · exact h

/-- R122: the evaluation asks a duty, with origin FROST. -/
theorem Jobs.QueueSound.zoneEvaluate (z : Nat) (h : Jobs.QueueSound set j) : Jobs.QueueSound set (j.zoneEvaluate e z) :=
  Jobs.QueueSound.keep _ _ (Jobs.QueueSound.dutyRequest z ((((h.updateZone ..).updateZone ..).postZone ..).updateZone ..))

theorem Jobs.QueueSound.suspectTest (k : HeadKind) (z : Option Nat) (h : Jobs.QueueSound set j) :
    Jobs.QueueSound set (j.suspectTest e k z) := by
  unfold Jobs.suspectTest
  split
  · dsimp only
    split <;> exact h.same
  · exact h

theorem Jobs.QueueSound.frostProbe (z : Nat) (t : Option Int) (h : Jobs.QueueSound set j) :
    Jobs.QueueSound set (j.frostProbe e z t) := by
  have test : ∀ {p : Prop} [Decidable p] (k : HeadKind) {k' : Jobs}, Jobs.QueueSound set k' →
      Jobs.QueueSound set (if p then k'.suspectTest e k (some z) else k') := by
    intro p _ k k' hk
    split
    · exact hk.suspectTest ..
    · exact hk
  exact test _ (test _ ((h.updateZone z _).zoneEvaluate z))

theorem Jobs.QueueSound.frostResult (i : Nat) (a : Action) (r : CmdResult) (h : Jobs.QueueSound set j) :
    Jobs.QueueSound set (j.frostResult e i a r) := by
  unfold Jobs.frostResult
  split
  · exact h
  · exact (h.updateZone ..).zoneEvaluate _

theorem Jobs.QueueSound.frostDiscord (i : Nat) (h : Jobs.QueueSound set j) : Jobs.QueueSound set (j.frostDiscord e i) := by
  unfold Jobs.frostDiscord
  split
  · exact h
  · refine Jobs.QueueSound.zoneEvaluate _ ?_
    split
    · exact h
    · exact h.updateZone ..

theorem Jobs.QueueSound.frostHold (i : Nat) (b : Bool) (h : Jobs.QueueSound set j) :
    Jobs.QueueSound set (j.frostHold e i b) := by
  unfold Jobs.frostHold
  split
  · exact h
  · refine Jobs.QueueSound.zoneEvaluate _ ?_
    split
    · exact h.updateZone ..
    · exact h

theorem Jobs.QueueSound.frostStatus (i m : Nat) (h : Jobs.QueueSound set j) : Jobs.QueueSound set (j.frostStatus e i m) := by
  unfold Jobs.frostStatus
  split <;> exact h.same

theorem Jobs.QueueSound.frostFaults (h : Jobs.QueueSound set j) : Jobs.QueueSound set (j.frostFaults e) := by
  unfold Jobs.frostFaults
  split
  · exact h
  · exact h.tele' _

/-! ## Level unit (spec/03) -/

theorem Jobs.QueueSound.recompute (a b : Option GaugeLevel) (h : Jobs.QueueSound set j) :
    Jobs.QueueSound set (j.recompute e a b) := by
  have tests : ∀ (was : Fusion) {k : Jobs}, Jobs.QueueSound set k →
      Jobs.QueueSound set ((k.gaugeSplitTest e was).gaugeLostTest e was) := by
    intro was k hk
    have hs : Jobs.QueueSound set (k.gaugeSplitTest e was) := by
      unfold Jobs.gaugeSplitTest
      split
      · exact hk.tele' _
      · exact hk
    unfold Jobs.gaugeLostTest
    dsimp only
    split
    · split
      · exact hs.tele' _
      · exact hs
    · split
      · exact hs.tele' _
      · exact hs
    · exact hs.tele' _
    · exact hs.tele' _
    · exact hs
  have first : ∀ (evs : List Event) {k : Jobs}, Jobs.QueueSound set k → Jobs.QueueSound set (k.tellFirst evs) :=
    fun _ _ hk => hk.same
  have level : ∀ r : LevelRecord, Jobs.QueueSound set { j with level := r } := fun _ => h.same
  unfold Jobs.recompute
  dsimp only
  split
  · exact tests _ (level _)
  · exact first _ (tests _ (level _))

/-! ## Settling (log 2) -/

/-- What a telling does in the block it is told to. -/
theorem Jobs.QueueSound.handle (ev : Event) (h : Jobs.QueueSound e.set j) : Jobs.QueueSound e.set (j.handle e ev) := by
  cases ev with
  | gaugeA | gaugeB | gaugeAGone | gaugeBGone | recompute => exact h.recompute ..
  | fillEval => exact h.fillEvaluate _
  | fillInlet f => exact h.fillInlet f
  | fillOutlet | frostInlet | frostOutlet | frostAir | frostMinute => exact h.same
  | fillResult i a r => exact h.fillResult i a r
  | fillCommanded => exact h.fillCommanded
  | fillDiscord i => exact h.fillDiscord i
  | fillFaults => exact h.fillFaults
  | guardEval | guardLevel | guardResult => exact h.guardEvaluate _
  | guardFloat w => exact h.guardFloat w
  | frostZone z => exact h.zoneEvaluate z
  | frostProbe z t => exact h.frostProbe z t
  | frostMinuteZone z | frostGrant z g => exact (h.updateZone ..).zoneEvaluate z
  | frostResult i a r => exact h.frostResult i a r
  | frostStatus i m => exact h.frostStatus i m
  | frostDiscord i => exact h.frostDiscord i
  | frostHold i b => exact h.frostHold i b
  | frostFaults => exact h.frostFaults
  | frostSuspect => exact (h.suspectTest ..).suspectTest ..
  | pass => exact h.pass
  | cap => exact h.deriveCap
  | powerResult i r => exact h.powerResult i r
  | operatorResult i a r => exact h.operatorResult i a r
  | condMinute => exact h.tele' _

theorem Jobs.QueueSound.observe (e0 : Env) (j0 : Jobs) (h : Jobs.QueueSound set j) :
    Jobs.QueueSound set (observe e0 j0 e j) := by
  have hd : Jobs.QueueSound set (j.discordTest e) := h.trims (Jobs.Trims.refl j).discordTest
  unfold Sys2Proof.Machine.observe
  dsimp only
  refine Jobs.QueueSound.tele' _ ?_
  split
  · exact hd
  · obtain ⟨hq, ha, -⟩ := flagsFollow_frame e j0 (j.discordTest e)
    exact (hd.same hq ha).tell _

/-- A settling keeps the queue sound. -/
theorem Jobs.QueueSound.settle (h : Jobs.QueueSound e.set j) : Jobs.QueueSound e.set (j.settle e) := by
  have drain : ∀ (n : Nat) {k : Jobs}, Jobs.QueueSound e.set k → Jobs.QueueSound e.set (Jobs.drain e n k) := by
    intro n
    induction n with
    | zero =>
      intro k hk
      unfold Jobs.drain
      exact hk.plan _
    | succ n ih =>
      intro k hk
      unfold Jobs.drain
      split
      · exact hk.plan _
      · exact ih (Jobs.QueueSound.observe _ _ (Jobs.QueueSound.handle _ hk.same))
  exact drain _ h

end Sys2Proof.Machine
end

section
/-!
PROOFS. Every command keeps the Command Queue sound: the effects of the blocks, the writes to the tables and the resets (R61, R67 to
R81, R178, R179).
The proofs are elaborated one after the other, which keeps the whole text inside the sandbox's memory.
-/

set_option Elab.async false

namespace Sys2Proof.Machine

variable {set : Settings} {e : Env} {j0 j j' : Jobs} {p q : Part} {s t : State}

/-! ## Reported states and the In-Flight Table (R63, R73 to R77) -/

theorem Jobs.Trims.endFlight (f : Flight) (r : CmdResult) (h : Jobs.Trims j0 j) : Jobs.Trims j0 (j.endFlight e f r) :=
  (h.same (j' := { j with flight := j.flight.filter (fun g => g.idx != f.idx) })).fenceTest.tellOrigin ..

theorem Jobs.Trims.lostTest (h : Jobs.Trims j0 j) : Jobs.Trims j0 (j.lostTest e) := by
  unfold Jobs.lostTest
  split
  · exact h
  · exact h.tele' _

theorem Jobs.Trims.setReported (i : Nat) (c : StateCode) (d : Nat) (u : Option Nat) (h : Jobs.Trims j0 j) :
    Jobs.Trims j0 (j.setReported e i c d u) := by
  have hr := h.updateAct i (fun a =>
    { a with reported := ⟨c, if c == .duty then d else 0, u.getD a.reported.units⟩, resp := .responsive }) fun _ _ => id
  unfold Jobs.setReported
  dsimp only
  split
  · exact hr.lostTest
  · exact hr

theorem Jobs.Trims.setFault (i : Nat) (f : ActFault) (h : Jobs.Trims j0 j) : Jobs.Trims j0 (j.setFault i f) :=
  h.updateAct i _ fun _ _ => id

theorem Jobs.Trims.unjam (i : Nat) (h : Jobs.Trims j0 j) : Jobs.Trims j0 (j.unjam i) := by
  unfold Jobs.unjam
  split
  · exact h.setFault ..
  · exact h

theorem Jobs.Trims.tellDiscord (i : Nat) (h : Jobs.Trims j0 j) : Jobs.Trims j0 (j.tellDiscord e i) := by
  unfold Jobs.tellDiscord
  split <;> exact h.same

theorem Jobs.Trims.statusReport (i : Nat) (c : StateCode) (d : Nat) (u : Option Nat) (h : Jobs.Trims j0 j) :
    Jobs.Trims j0 (j.statusReport e i c d u) := by
  have hr := h.setReported (e := e) i c d u
  unfold Jobs.statusReport
  dsimp only
  split
  · exact hr
  · exact ((hr.updateAct i (fun a => { a with discord := true }) fun _ _ => id).tele' _).tellDiscord i

theorem Jobs.Trims.answered (f : Flight) (c : StateCode) (d : Nat) (h : Jobs.Trims j0 j) :
    Jobs.Trims j0 (j.answered e f c d) := by
  unfold Jobs.answered
  split
  · exact h.endFlight ..
  · exact h.endFlight ..
  · exact h.endFlight ..
  · split
    · exact (h.unjam _).endFlight ..
    · split
      · exact h.same
      · split
        · exact (h.setFault ..).endFlight ..
        · exact h.endFlight ..

theorem Jobs.trims_ackItem (e : Env) (i : Nat) (x : Slot) (j : Jobs) : Jobs.Trims j (j.ackItem e i x) := by
  have h0 := Jobs.Trims.refl j
  unfold Jobs.ackItem
  split
  · exact h0
  · split
    · split
      · exact (h0.setReported ..).answered ..
      · exact h0.statusReport ..
    · exact h0.statusReport ..

theorem Jobs.Trims.positionStatus (f : Flight) (b : Bool) (c : StateCode) (h : Jobs.Trims j0 j) :
    Jobs.Trims j0 (j.positionStatus e f b c) := by
  unfold Jobs.positionStatus
  split
  · exact (h.unjam _).endFlight ..
  · split
    · exact (h.setFault ..).endFlight ..
    · exact h

theorem Jobs.trims_statusItem (e : Env) (i : Nat) (x : Slot) (j : Jobs) : Jobs.Trims j (j.statusItem e i x) := by
  have h0 := Jobs.Trims.refl j
  unfold Jobs.statusItem
  split
  · exact h0
  · next code _ =>
    have reported : ∀ units, Jobs.Trims j (match j.flightOf i with
        | some f =>
            match f.action with
            | .position opened => (j.setReported e i code x.field2 units).positionStatus e f opened code
            | _ => j.statusReport e i code x.field2 units
        | none => j.statusReport e i code x.field2 units) := by
      intro units
      split
      · split
        · exact (h0.setReported ..).positionStatus ..
        · exact h0.statusReport ..
      · exact h0.statusReport ..
    dsimp only
    split
    · exact (reported _).same
    · exact reported _

theorem Jobs.trims_ackTimeout (e : Env) (i : Nat) (j : Jobs) : Jobs.Trims j (j.ackTimeout e i) := by
  have h0 := Jobs.Trims.refl j
  unfold Jobs.ackTimeout
  split
  · exact h0
  · split
    · exact h0
    · exact (((h0.same (j' := Jobs.count ..)).updateAct i (fun a => { a with resp := .unresponsive })
        fun _ _ => id).tele' _).endFlight ..

theorem Jobs.trims_travelTimeout (e : Env) (i : Nat) (j : Jobs) : Jobs.Trims j (j.travelTimeout e i) := by
  have h0 := Jobs.Trims.refl j
  unfold Jobs.travelTimeout
  split
  · exact h0
  · split
    · exact (h0.updateAct i (fun a => { a with reported := ⟨.jammed, 0, a.reported.units⟩, fault := .jammed })
        fun _ _ => id).endFlight ..
    · exact h0

theorem Jobs.trims_restExpiry (i : Nat) (j : Jobs) : Jobs.Trims j (j.restExpiry i) := by
  unfold Jobs.restExpiry
  split
  · exact ((Jobs.Trims.refl j).updateAct i (fun a => { a with rest := none }) fun _ _ => id).same
  · exact .refl j

theorem Jobs.Trims.runSecond (h : Jobs.Trims j0 j) : Jobs.Trims j0 (j.runSecond e) :=
  Jobs.Trims.foldl _ _ (fun i hi => by
    split
    · refine hi.updateAct i _ fun a x hx => ?_
      split at hx <;> exact hx
    · exact hi) h

/-! ## Issue (R71) -/

/-- R71: an issued command leaves the queue. -/
theorem Jobs.trims_issue (e : Env) (i : Nat) (a : Action) (o : Origin) (j : Jobs) : Jobs.Trims j (j.issue e i a o) := by
  have erased : Jobs.Trims j { j with
      queue := j.queue.erase (.cmd i a o)
      flight := j.flight ++ [Flight.mk i a o false (e.now + e.set.general.ackTimeout)] } :=
    ⟨List.erase_sublist, fun _ _ => id⟩
  exact ((erased.updateAct i (fun r => { r with settled := a.commanded.getD r.settled }) fun _ _ => id).same
    (j' := Jobs.count ..)).itemsLeft

/-! ## The operator path (R78) -/

theorem Jobs.Trims.startHold (i : Nat) (h : Jobs.Trims j0 j) : Jobs.Trims j0 (j.startHold e i) :=
  (h.updateAct i (fun a => { a with hold := some ⟨e.clock.tow, e.now + e.set.general.operatorHoldLimit⟩ })
    fun _ _ => id).tellHold i true

theorem Jobs.QueueSound.operatorQueue (i : Nat) (x : OperatorItem) (h : Jobs.QueueSound set j) :
    Jobs.QueueSound set (j.operatorQueue e i x) := by
  have hq := h.enqueue (e := e) (o := .operator) (by decide) i x.action
  unfold Jobs.operatorQueue
  split
  · next hp =>
    split
    · exact hq.of_eq hp
    · exact (hq.of_eq hp).trims ((Jobs.Trims.refl _).startHold i)
  · next k hp =>
    have hr : Jobs.Trims k (k.refuseFull e .operator i x.action) := ((Jobs.Trims.refl k).tele' _).refuse ..
    dsimp only
    split
    · exact (hq.of_eq hp).trims (hr.withdrawOperator i)
    · exact (hq.of_eq hp).trims hr

theorem Jobs.QueueSound.postOperator (n : Nat) (h : Jobs.QueueSound set j) : Jobs.QueueSound set (j.postOperator e n) := by
  have hc : Jobs.QueueSound set (j.updateClaim (n - 1) (fun c => { c with operator := true })) := h.same
  unfold Jobs.postOperator
  dsimp only
  split
  · exact hc
  · exact hc.pass

theorem Jobs.QueueSound.operatorStart (i : Nat) (x : OperatorItem) (h : Jobs.QueueSound set j) :
    Jobs.QueueSound set (j.operatorStart e i x) := by
  unfold Jobs.operatorStart
  split
  · exact h.trims ((Jobs.Trims.refl j).refuse ..)
  · dsimp only
    split
    · exact (h.postOperator _).trims (((Jobs.Trims.refl _).refuse ..).withdrawOperator i)
    · exact (h.postOperator _).operatorQueue i x

theorem Jobs.QueueSound.operatorItem (i : Nat) (x : OperatorItem) (h : Jobs.QueueSound set j) :
    Jobs.QueueSound set (j.operatorItem e i x) := by
  unfold Jobs.operatorItem
  split
  · exact h.endHold ..
  · split
    · exact h.trims ((Jobs.Trims.refl j).refuse ..)
    · split
      · exact h.operatorStart ..
      · exact h.operatorQueue ..

theorem Jobs.QueueSound.operatorFence (h : Jobs.QueueSound set j) : Jobs.QueueSound set (j.operatorFence e) := by
  unfold Jobs.operatorFence
  split
  · next hp => exact ((h.join rfl).of_eq hp).trims (Jobs.Trims.refl _).fenceTest
  · next k hp =>
    exact ((h.join rfl).of_eq hp).trims (((Jobs.Trims.refl k).same (j' := k.countRefusal)).tele' _)

/-! ## The other blocks' own effects -/

theorem Jobs.QueueSound.faultPump (n : Nat) (f : ActFault) (h : Jobs.QueueSound set j) :
    Jobs.QueueSound set (j.faultPump e n f) := by
  unfold Jobs.faultPump
  split
  · exact h.endRun n
  · exact (h.trims (((Jobs.Trims.refl j).setFault ..).tele' _)).endRun n

theorem Jobs.QueueSound.proveExpiry (n : Nat) (h : Jobs.QueueSound set j) : Jobs.QueueSound set (j.proveExpiry e n) := by
  unfold Jobs.proveExpiry
  split
  · exact h
  · dsimp only
    split
    · split
      · exact ((h.updateRun ..).faultPump ..).fillEvaluate _
      · exact (h.updateRun ..).updateRun ..
    · exact h.updateRun ..

theorem Jobs.QueueSound.dryExpiry (n : Nat) (h : Jobs.QueueSound set j) : Jobs.QueueSound set (j.dryExpiry e n) := by
  unfold Jobs.dryExpiry
  split
  · exact h
  · exact ((h.updateRun ..).faultPump ..).fillEvaluate _

theorem Jobs.QueueSound.blindStartExpiry (h : Jobs.QueueSound e.set j) : Jobs.QueueSound e.set (j.blindStartExpiry e) := by
  unfold Jobs.blindStartExpiry
  split
  · exact h
  · exact (h.same (j' := Jobs.guarding ..)).guardEvaluate _

theorem Jobs.QueueSound.failHeater (z : Nat) (h : Jobs.QueueSound set j) : Jobs.QueueSound set (j.failHeater e z) := by
  unfold Jobs.failHeater
  refine Jobs.QueueSound.zoneEvaluate z (Jobs.QueueSound.tele' _ (Jobs.QueueSound.updateZone _ _ ?_))
  split
  · exact h
  · exact h.trims ((Jobs.Trims.refl j).setFault ..)

theorem Jobs.QueueSound.heaterProveExpiry (z : Nat) (h : Jobs.QueueSound set j) :
    Jobs.QueueSound set (j.heaterProveExpiry e z) := by
  unfold Jobs.heaterProveExpiry
  split
  · exact h.failHeater z
  · exact h

theorem Jobs.QueueSound.splitExpiry (h : Jobs.QueueSound set j) : Jobs.QueueSound set (j.splitExpiry e) := by
  unfold Jobs.splitExpiry
  split
  · exact (h.same (j' := { j with level := { j.level with split := none } })).tele' _
  · exact h

theorem Jobs.QueueSound.clearFault (i : Nat) (h : Jobs.QueueSound set j) : Jobs.QueueSound set (j.clearFault e i) := by
  have hf := h.trims ((Jobs.Trims.refl j).setFault i .none)
  unfold Jobs.clearFault
  split
  · exact h
  · dsimp only
    split
    · exact hf.same
    · exact hf.same
    · exact hf
    · split <;> exact hf.same

theorem Jobs.QueueSound.releaseTrip (h : Jobs.QueueSound e.set j) : Jobs.QueueSound e.set (j.releaseTrip e).1 := by
  unfold Jobs.releaseTrip
  split
  · exact h
  · split
    · unfold Jobs.release
      dsimp only
      refine Jobs.QueueSound.same (j := Jobs.guardGroup e _ _) (Jobs.QueueSound.guardGroup ?_ ?_)
      · split
        · exact groupSound_nil _
        · next hd =>
          split
          · exact groupSound_nil _
          · exact hd ▸ groupSound_drain ..
      · exact (((h.same (j' := Jobs.askWord _)).tele' _).tele' _).tele' _
    · exact h

/-- What a command itself does in the blocks keeps the queue sound. -/
theorem Jobs.Effect.queueSound (h : Jobs.Effect e j j') (hs : Jobs.QueueSound e.set j) : Jobs.QueueSound e.set j' := by
  cases h with
  | raise | clear | acknowledge | pulseExpiry | minimumExpiry | maximumExpiry | packHoldExpiry => exact hs.tele' _
  | urgentSent | openedSent => exact (hs.tele' _).tele' _
  | issue => exact hs.trims (Jobs.trims_issue ..)
  | statusItem => exact hs.trims (Jobs.trims_statusItem ..)
  | ackItem => exact hs.trims (Jobs.trims_ackItem ..)
  | operatorItem => exact hs.operatorItem ..
  | operatorFence => exact hs.operatorFence
  | ackTimeout => exact hs.trims (Jobs.trims_ackTimeout ..)
  | travelTimeout => exact hs.trims (Jobs.trims_travelTimeout ..)
  | restExpiry => exact hs.trims (Jobs.trims_restExpiry ..)
  | holdExpiry => exact hs.endHold ..
  | proveExpiry => exact hs.proveExpiry _
  | dryExpiry => exact hs.dryExpiry _
  | blindStartExpiry => exact hs.blindStartExpiry
  | heaterProveExpiry => exact hs.heaterProveExpiry _
  | splitExpiry => exact hs.splitExpiry
  | clearFault => exact hs.clearFault _
  | takeStore => exact hs.same
  | releaseTrip => exact hs.releaseTrip

end Sys2Proof.Machine
end

section
/-!
PROOFS. Every step keeps the Command Queue sound: the writes of the tables (R81, R176), the effects that move the time or a head, and
the resets (R61, R178, R179).
The proofs are elaborated one after the other, which keeps the whole text inside the sandbox's memory.
-/

set_option Elab.async false

namespace Sys2Proof.Machine

variable {set new : Settings} {e : Env} {j0 j j' : Jobs} {p q : Part} {s t : State}

/-! ## Writes (R176) -/

/-- Settings under which the same entries are pumps and valves in use. -/
theorem Jobs.QueueSound.rekey (h : Jobs.QueueSound set j) (ht : actuatorsOk new.actuators = true)
    (hg : ∀ i ∈ j.queue.filterMap QueueItem.guardIdx, (set.act i).guarded = true → (new.act i).guarded = true) :
    Jobs.QueueSound new j := ⟨h.room, h.first, h.nodup, fun i hi => hg i hi (h.guarded i hi), h.parked, ht⟩

theorem Jobs.QueueSound.sameTable (h : Jobs.QueueSound set j) (ha : new.actuators = set.actuators) :
    Jobs.QueueSound new j :=
  h.rekey (ha ▸ h.table) fun i _ hg => by unfold Settings.act at hg ⊢; rw [ha]; exact hg

/-- R176: only an ACTUATORS write changes the Actuator Table. -/
theorem writeTable_actuators {t : Table} {i g : Nat} {d : List Byte} (ht : t ≠ .actuators)
    (hw : writeTable set t i g d = some new) : new.actuators = set.actuators := by
  have kept : ∀ {ok : Bool} {s' : Settings}, taken ok s' = some new → s'.actuators = set.actuators →
      new.actuators = set.actuators := fun h hs => (taken_eq_some h).2 ▸ hs
  unfold writeTable at hw
  cases t with
  | actuators => exact absurd rfl ht
  | general =>
    dsimp only [writeGeneral] at hw
    split at hw <;> exact kept hw rfl
  | heads =>
    dsimp only [writeHead] at hw
    split at hw
    · split at hw
      · exact kept hw rfl
      · cases hw
    · exact kept hw rfl
  | tariff =>
    dsimp only [writeTariff] at hw
    split at hw
    · split at hw
      · exact kept hw rfl
      · cases hw
    · exact kept hw rfl
  | strapping =>
    dsimp only [writeStrapping] at hw
    split at hw <;> exact kept hw rfl
  | guard =>
    dsimp only [writeGuard] at hw
    split at hw
    · exact kept hw rfl
    · split at hw
      · exact kept hw rfl
      · cases hw
  | zones =>
    dsimp only [writeShared, writeZone] at hw
    split at hw
    · split at hw
      · split at hw
        · exact kept hw rfl
        · cases hw
      · exact kept hw rfl
    · split at hw
      · split at hw
        · exact kept hw rfl
        · cases hw
      · exact kept hw rfl
      · exact kept hw rfl
  | allotment => exact kept hw rfl
  | policy =>
    dsimp only [writePolicy] at hw
    split at hw <;> exact kept hw rfl
  | conditions =>
    dsimp only [writeConditions] at hw
    split at hw <;> split at hw
    · exact kept hw rfl
    · cases hw
    · exact kept hw rfl
    · cases hw

/-- R60, R176: an ACTUATORS write leaves a table within its numbers, and the other entries alone. -/
theorem writeTable_actuators_ok {i g : Nat} {d : List Byte} (hw : writeTable set .actuators i g d = some new) :
    actuatorsOk new.actuators = true ∧ ∀ k, k ≠ i → new.act k = set.act k := by
  dsimp only [writeTable, writeActuator] at hw
  split at hw
  · obtain ⟨hok, rfl⟩ := taken_eq_some hw
    simp only [Bool.and_eq_true] at hok
    exact ⟨hok.2, fun k hk => updateAt_getD_ne _ _ _ _ _ hk⟩
  · cases hw

/-- R81: an entry that changes has no unsent command left. -/
theorem Jobs.trims_cancelUnsent (e : Env) (i : Nat) (j : Jobs) :
    Jobs.Trims { j with queue := j.queue.filter (fun x => !x.isFor i) } (j.cancelUnsent e i) := by
  unfold Jobs.cancelUnsent
  exact Jobs.Trims.foldl _ _ (fun x hx => by cases x; exacts [hx.cancel .., hx]) (.refl _)

theorem Jobs.QueueSound.request_start (i : Nat) {b : Bool} (h : Jobs.QueueSound set j) :
    Jobs.QueueSound set (if b then j.request e .start [.cmd i .query] else j) := by
  split
  · exact h.request (by decide) _
  · exact h

/-- R81: an entry that changes takes its guard commands with it. -/
theorem Jobs.QueueSound.entryChanged (before : Settings) (i : Nat) (ht : actuatorsOk e.set.actuators = true)
    (hk : ∀ k, k ≠ i → e.set.act k = before.act k) (h : Jobs.QueueSound before j) :
    Jobs.QueueSound e.set (j.entryChanged e before i) := by
  have cancelled : Jobs.QueueSound e.set (j.cancelUnsent e i) := by
    refine (h.trims (((Jobs.Trims.refl j).dequeue List.filter_sublist).trans (j.trims_cancelUnsent e i))).rekey ht ?_
    intro k hm hg
    have hne : k ≠ i := by
      rintro rfl
      obtain ⟨x, hx, hxk⟩ := List.mem_filterMap.mp hm
      have := (List.mem_filter.mp ((j.trims_cancelUnsent e k).queue.subset hx)).2
      rw [isFor_of_guardIdx hxk] at this
      cases this
    rw [hk k hne]
    exact hg
  have claims : ∀ {k : Jobs}, Jobs.QueueSound e.set k → Jobs.QueueSound e.set (match before.pumpNumber i with
      | none => k
      | some n =>
          if (k.claim (n - 1)).operator then (k.updateClaim (n - 1) (fun c => { c with operator := false })).startPass
          else k) := fun hk => by
    split
    · exact hk
    · split <;> exact hk.same
  have zone : ∀ {k : Jobs} (lost : Bool), Jobs.QueueSound e.set k →
      Jobs.QueueSound e.set (match (before.heaterZone i).or (e.set.heaterZone i) with
      | none => k
      | some z => k.updateZone z (Zone.entryMoved lost)) := fun lost hk => by
    split <;> exact hk.same
  have left : Jobs.QueueSound e.set (((j.cancelUnsent e i).abandon i).itemsLeft e) :=
    (cancelled.same (j' := Jobs.abandon i _)).trims (Jobs.Trims.refl _).itemsLeft
  unfold Jobs.entryChanged
  dsimp only
  refine Jobs.QueueSound.request_start i (zone _ (claims (left.trims ((Jobs.Trims.refl _).updateAct i _ ?_))))
  intro a x hx
  split at hx <;> cases hx

theorem Jobs.QueueSound.zonesWritten (before : Settings) (h : Jobs.QueueSound set j) :
    Jobs.QueueSound set (j.zonesWritten e before) := by
  have left : Jobs.QueueSound set (j.leaveHeaters e before) := Jobs.QueueSound.foldl _ _ (fun z _ hz => by
    unfold Jobs.leaveHeater
    split
    · exact hz
    · split
      · exact hz
      · dsimp only
        split
        · exact (hz.updateZone ..).request (by decide) _
        · exact hz.updateZone ..) h
  exact left.tell _

theorem Jobs.QueueSound.actuatorWritten (before : Settings) (i : Nat) (ht : actuatorsOk e.set.actuators = true)
    (hk : ∀ k, k ≠ i → e.set.act k = before.act k) (h : Jobs.QueueSound before j) :
    Jobs.QueueSound e.set (j.actuatorWritten e before i) := by
  unfold Jobs.actuatorWritten
  refine Jobs.QueueSound.zonesWritten _ (Jobs.QueueSound.tell _ (Jobs.QueueSound.incumbents ?_))
  refine Jobs.QueueSound.trims ?_ (Jobs.Trims.refl _).lostTest
  split
  · exact h.entryChanged before i ht hk
  · next hsame =>
    refine h.rekey ht fun k _ hg => ?_
    by_cases hki : k = i
    · subst hki
      have huse : (before.act k).inUse = true := by
        rw [ActSettings.guarded, Bool.and_eq_true] at hg
        exact hg.1
      obtain ⟨haddr, hkind, -⟩ : (before.act k).address = (e.set.act k).address
          ∧ (before.act k).kind = (e.set.act k).kind ∧ (before.act k).manual = (e.set.act k).manual := by
        by_contra hn
        refine hsame ⟨?_, .inl huse⟩
        simp only [not_and_or] at hn
        exact hn
      unfold ActSettings.guarded ActSettings.inUse at hg ⊢
      rw [← haddr, ← hkind]
      exact hg
    · rw [hk k hki]
      exact hg

theorem Jobs.QueueSound.tariffChange (a c : Env) (h : Jobs.QueueSound set j) : Jobs.QueueSound set (j.tariffChange a c) := by
  unfold Jobs.tariffChange
  split
  · exact h
  · exact h.tell _

theorem Jobs.QueueSound.clearSuspect (a : Nat) (h : Jobs.QueueSound set j) : Jobs.QueueSound set (j.clearSuspect a) := by
  unfold Jobs.clearSuspect
  split <;> exact h.same

theorem Jobs.QueueSound.headReset (a : Nat) (x : HeadSettings) (h : Jobs.QueueSound set j) :
    Jobs.QueueSound set (j.headReset a x) := h.same

theorem Jobs.QueueSound.headWritten (a : Nat) (old : HeadSettings) (h : Jobs.QueueSound set p.2) :
    Jobs.QueueSound set (headWritten a old p).2 := by
  unfold Sys2Proof.Machine.headWritten
  dsimp only
  split
  · exact h
  · exact h.headReset ..
  · exact (h.headReset ..).keep ..
  · split
    · exact ((h.headReset ..).keep ..).headReset ..
    · split
      · exact h.tell _
      · exact h

theorem Jobs.QueueSound.guardWritten (before : Settings) (h : Jobs.QueueSound set j) :
    Jobs.QueueSound set (j.guardWritten e before) := by
  have clear : ∀ (k : HeadKind) (was now : Option Nat) {j' : Jobs}, Jobs.QueueSound set j' →
      Jobs.QueueSound set (match e.set.knownKind k with
        | none => j'
        | some a => if was.isSome && was != now then j'.clearSuspect a else j') := by
    intro k was now j' hj
    split
    · exact hj
    · split
      · exact hj.clearSuspect _
      · exact hj
  have both := clear .gaugeRanging before.guard.housingB e.set.guard.housingB
    (clear .gaugePressure before.guard.housingA e.set.guard.housingA h)
  unfold Jobs.guardWritten
  dsimp only
  split
  · exact both.same
  · exact both.tell _

theorem Jobs.QueueSound.zoneWritten (before : Settings) (i : Nat) (h : Jobs.QueueSound set j) :
    Jobs.QueueSound set (j.zoneWritten e before i) := by
  have left : ∀ {k : Jobs}, Jobs.QueueSound set k → Jobs.QueueSound set (k.leaveHeaters e before) := fun hk =>
    (hk.zonesWritten (e := e) before).same
  unfold Jobs.zoneWritten
  split
  · exact h.tell _
  · refine Jobs.QueueSound.same (j := Jobs.leaveHeaters e before _) (left ?_)
    split
    · exact h
    · exact h.updateZone ..

/-- R176: a write leaves the queue sound under the settings that it leaves. -/
theorem Jobs.QueueSound.takeWrite {t : Table} {i g : Nat} {d : List Byte} (hw : writeTable p.1.set t i g d = some new)
    (h : Jobs.QueueSound p.1.set p.2) : Jobs.QueueSound (takeWrite t i g new p).1.set (takeWrite t i g new p).2 := by
  have hset : (Sys2Proof.Machine.takeWrite t i g new p).1.set = new :=
    (Part.kept_ownerTold (live := new) t i g p.1.set ({ p.1 with set := new }, p.2)).set
  rw [hset]
  unfold Sys2Proof.Machine.takeWrite ownerTold
  cases t with
  | actuators =>
    obtain ⟨hok, hk⟩ := writeTable_actuators_ok hw
    exact Jobs.QueueSound.actuatorWritten (e := { p.1 with set := new }) p.1.set i hok hk h
  | general =>
    have hn := h.sameTable (writeTable_actuators (by decide) hw)
    dsimp only
    split
    · exact hn
    · split <;> exact hn.same
  | heads =>
    have hn := h.sameTable (writeTable_actuators (by decide) hw)
    have hh := hn.headWritten (p := ({ p.1 with set := new }, p.2)) i (p.1.set.head i)
    dsimp only [tellHeads]
    refine Jobs.QueueSound.zonesWritten _ ?_
    split
    · exact hh.incumbents.tell _
    · exact hh
  | tariff => exact (h.sameTable (writeTable_actuators (by decide) hw)).tariffChange ..
  | strapping =>
    have hn := h.sameTable (writeTable_actuators (by decide) hw)
    dsimp only
    split
    · exact hn
    · exact hn.same
  | guard => exact (h.sameTable (writeTable_actuators (by decide) hw)).guardWritten _
  | zones => exact (h.sameTable (writeTable_actuators (by decide) hw)).zoneWritten ..
  | allotment => exact ((h.sameTable (writeTable_actuators (by decide) hw)).tariffChange ..).same
  | policy | conditions =>
    dsimp only
    exact (h.sameTable (writeTable_actuators (by decide) hw)).tele' _

/-! ## Effects that move the time, the settings or a head -/

theorem Jobs.QueueSound.leftStale (was : HeadState) (h : Jobs.QueueSound set j) : Jobs.QueueSound set (j.leftStale e was) := by
  unfold Jobs.leftStale
  split
  · exact h.keep ..
  · exact h

theorem Jobs.QueueSound.tick (h : Jobs.QueueSound set p.2) : Jobs.QueueSound set (tick p).2 := by
  have run : ∀ e, Jobs.QueueSound set (p.2.runSecond e) := fun e => h.trims (Jobs.Trims.refl _).runSecond
  unfold Sys2Proof.Machine.tick
  dsimp only
  split
  · exact ((run _).tariffChange ..).tell _
  · exact run _

theorem Jobs.QueueSound.takeItem (a : Nat) (x : SampleItem) (h : Jobs.QueueSound set p.2) :
    Jobs.QueueSound set (takeItem a x p).2 := by
  unfold Sys2Proof.Machine.takeItem
  split
  · exact h
  · unfold takeValue
    dsimp only
    split
    · exact (h.leftStale _).tell _
    · exact h.leftStale _
  · exact (h.leftStale _).tell _

theorem Jobs.QueueSound.heard (bs : List Byte) (h : Jobs.QueueSound set p.2) : Jobs.QueueSound set (heard bs p).2 := by
  unfold Sys2Proof.Machine.heard
  dsimp only
  split
  · dsimp only
    split
    · exact h.leftStale _
    · exact h
  · exact h

theorem Jobs.QueueSound.staleExpiry (a : Nat) (h : Jobs.QueueSound set p.2) : Jobs.QueueSound set (staleExpiry a p).2 := by
  unfold Sys2Proof.Machine.staleExpiry
  split
  · dsimp only
    split
    · exact h.tell _
    · exact (h.tell _).keep ..
  · exact h

theorem Jobs.QueueSound.clockItem (t : TimeOfWeek) (h : Jobs.QueueSound set p.2) : Jobs.QueueSound set (clockItem t p).2 := by
  have jumped : Jobs.QueueSound set (p.2.countJump p.1.clock t) := by
    unfold Jobs.countJump
    split <;> exact h.same
  exact (((jumped.tele' _).tele' _).tariffChange ..).same

theorem Jobs.QueueSound.clockStaleExpiry (h : Jobs.QueueSound set p.2) : Jobs.QueueSound set (clockStaleExpiry p).2 := by
  unfold Sys2Proof.Machine.clockStaleExpiry
  split
  · exact (h.tele' _).tariffChange ..
  · exact h

theorem Part.Effect.queueSound (h : Part.Effect p q) (hs : Jobs.QueueSound p.1.set p.2) : Jobs.QueueSound q.1.set q.2 := by
  cases h with
  | jobs h => exact h.queueSound hs
  | idle => exact hs
  | tick => exact (Part.kept_tick (live := p.1.set) p).set ▸ hs.tick
  | clockItem t => exact hs.clockItem t
  | clockStaleExpiry => exact (Part.kept_clockStaleExpiry (live := p.1.set) p).set ▸ hs.clockStaleExpiry
  | heard bs => exact (Part.kept_heard (live := p.1.set) bs p).set ▸ hs.heard bs
  | takeItem a x => exact (Part.kept_takeItem (live := p.1.set) a x p).set ▸ hs.takeItem a x
  | staleExpiry a => exact (Part.kept_staleExpiry (live := p.1.set) a p).set ▸ hs.staleExpiry a
  | write hw => exact hs.takeWrite hw

/-! ## The whole part -/

theorem State.queueKept_iff (s : State) :
    s.QueueKept ↔ Jobs.QueueSound s.env.set s.jobs ∧ ∀ x, s.jobs.Holds x → actuatorsOk x.actuators = true := by
  have parked : (∀ a ∈ s.jobs.acts, ∀ x ∈ a.parked, x.2 ≠ .guard) ↔ ∀ i, ∀ x ∈ (s.jobs.act i).parked, x.2 ≠ .guard := by
    constructor
    · intro h i
      unfold Jobs.act
      by_cases hi : i < s.jobs.acts.length
      · rw [List.getD_eq_getElem _ _ hi]
        exact h _ (List.getElem_mem hi)
      · rw [List.getD_eq_default _ _ (Nat.le_of_not_lt hi)]
        exact nofun
    · intro h a ha
      obtain ⟨i, hi, rfl⟩ := List.mem_iff_getElem.mp ha
      have := h i
      unfold Jobs.act at this
      rwa [List.getD_eq_getElem _ _ hi] at this
  constructor
  · rintro ⟨⟨hroom, hfirst, hnodup⟩, hguarded, hparked, htable, himage, hstoring⟩
    exact ⟨⟨hroom, (guardFirst_iff _).mpr hfirst, hnodup, hguarded, parked.mp hparked, htable⟩,
      fun x hx => hx.elim (himage x) (hstoring x)⟩
  · rintro ⟨⟨hroom, hfirst, hnodup, hguarded, hparked, htable⟩, hstored⟩
    exact ⟨⟨hroom, (guardFirst_iff _).mp hfirst, hnodup⟩, hguarded, parked.mpr hparked, htable,
      fun x hx => hstored x (.inl hx), fun x hx => hstored x (.inr hx)⟩

/-- A sound queue, with settings drawn from those in force, stored and being stored. -/
theorem State.QueueKept.of_sound (h : s.QueueKept) (hq : Jobs.QueueSound t.env.set t.jobs)
    (hk : Jobs.Kept s.env.set s.jobs t.jobs) : t.QueueKept := by
  obtain ⟨hs, hstored⟩ := s.queueKept_iff.mp h
  exact t.queueKept_iff.mpr ⟨hq, fun x hx => (hk.stored x hx).elim (fun he => he ▸ hs.table) (hstored x)⟩

/-- R61, R67: an empty queue, and no record with a parked request. -/
theorem Jobs.QueueSound.of_empty (hq : j.queue = []) (ha : ∀ i, (j.act i).parked = none)
    (ht : actuatorsOk set.actuators = true) : Jobs.QueueSound set j := by
  have hn : j.queue.filterMap QueueItem.guardIdx = [] := by rw [hq]; rfl
  refine ⟨?_, ?_, hn ▸ List.nodup_nil, fun i hi => ?_, fun i x hx => ?_, ht⟩
  · rw [hq]; exact Nat.zero_le _
  · rw [hq]; exact List.Pairwise.nil
  · rw [hn] at hi; cases hi
  · rw [ha i] at hx; cases hx

theorem Jobs.QueueSound.resetTaken (h : Jobs.QueueSound e.set j) : Jobs.QueueSound e.set (j.resetTaken e) := by
  have first : ∀ {k : Jobs}, Jobs.QueueSound e.set k → Jobs.QueueSound e.set k.firstEvaluations := fun hk => hk.same
  have queried : Jobs.QueueSound e.set (j.queryAll e) := h.request (o := .start) (by decide) _
  exact Jobs.QueueSound.settle (first (queried.tele' _))

theorem Jobs.QueueSound.raiseWhen (k : CondKind) (b : Bool) (h : Jobs.QueueSound set j) :
    Jobs.QueueSound set (j.raiseWhen e k b) := by
  unfold Jobs.raiseWhen
  split
  · exact h.tele' _
  · exact h

/-- R61: a restart unparks every request. -/
theorem Jobs.restarted_parked (e : Env) (j : Jobs) (i : Nat) : ((j.restarted e).act i).parked = none := by
  unfold Jobs.act Jobs.restarted
  rw [List.getD_eq_getElem?_getD, List.getElem?_map]
  cases (List.range Config.actuatorCount)[i]? with
  | none => rfl
  | some k =>
    show (e.set.actRestart k (j.act k)).parked = none
    unfold Settings.actRestart
    split <;> rfl

theorem State.QueueKept.restart (h : s.QueueKept) (hset : set = s.env.set ∨ set ∈ s.jobs.store.image) :
    (s.restart set).QueueKept := by
  obtain ⟨hs, hstored⟩ := s.queueKept_iff.mp h
  have table : actuatorsOk set.actuators = true := hset.elim (fun he => he ▸ hs.table) (fun hi => hstored set (.inl hi))
  refine h.of_sound ?_ ?_
  · have fresh : Jobs.QueueSound (s.env.restarted set).set (s.jobs.restarted (s.env.restarted set)) :=
      .of_empty rfl (Jobs.restarted_parked _ _) table
    exact ((((fresh.tele' _).raiseWhen ..).raiseWhen ..).tariffChange ..).resetTaken
  · have h0 : Jobs.Kept s.env.set s.jobs (s.jobs.restarted (s.env.restarted set)) :=
      ⟨fun _ => ⟨Nat.zero_le _, List.nodup_nil⟩, fun _ => .inr⟩
    unfold State.restart
    exact ((((h0.same (j' := Jobs.tele' ..)).raiseWhen ..).raiseWhen ..).tariffChange ..).trans (Jobs.kept_resetTaken ..)

theorem actuatorsOk_factory : actuatorsOk Settings.factory.actuators = true := by decide

theorem State.QueueKept.powerUp (h : s.QueueKept) : s.powerUp.QueueKept := by
  obtain ⟨hs, hstored⟩ := s.queueKept_iff.mp h
  have table : actuatorsOk s.jobs.store.survive.loaded.actuators = true := by
    unfold Store.loaded
    split
    · next image hi =>
      split
      · exact hstored image (.inl hi)
      · exact actuatorsOk_factory
    · exact actuatorsOk_factory
  refine h.of_sound ?_ ?_
  · have fresh : Jobs.QueueSound (Env.atPowerOn s.jobs.store.survive.loaded).set (Jobs.atPowerOn
        (Env.atPowerOn s.jobs.store.survive.loaded) s.jobs.store.survive s.jobs.choices) :=
      .of_empty rfl (fun i => congrArg ActRuntime.parked (Jobs.act_powerOn s.jobs.store.survive i)) table
    exact (((fresh.tele' _).raiseWhen ..).raiseWhen ..).resetTaken
  · have h0 : Jobs.Kept s.env.set s.jobs (Jobs.atPowerOn (Env.atPowerOn s.jobs.store.survive.loaded) s.jobs.store.survive
        s.jobs.choices) :=
      ⟨fun _ => ⟨Nat.zero_le _, List.nodup_nil⟩, fun x hx => .inr (hx.elim .inl nofun)⟩
    exact (((h0.same (j' := Jobs.raise ..)).raiseWhen ..).raiseWhen ..).trans (Jobs.kept_resetTaken ..)

theorem State.QueueKept.powerDown (h : s.QueueKept) : s.powerDown.QueueKept := by
  refine h.of_sound (.of_empty rfl (fun i => ?_) actuatorsOk_factory)
    ⟨fun _ => ⟨Nat.zero_le _, List.nodup_nil⟩, fun x hx => .inr (hx.elim .inl nofun)⟩
  exact congrArg ActRuntime.parked (Jobs.act_powerOn s.jobs.store.survive i)

theorem State.Move.queueKept (hm : State.Move s t) (h : s.QueueKept) : t.QueueKept := by
  obtain ⟨hs, -⟩ := s.queueKept_iff.mp h
  have h0 := Jobs.Kept.refl s.env.set s.jobs
  cases hm with
  | change f hf =>
    exact h.of_sound ((hf.queueSound hs).observe _ _).settle (hf.keepsSizes.stored.moves (Jobs.moves_complete ..))
  | settled => exact h.of_sound hs.settle (h0.moves (Jobs.moves_settle ..))
  | restart set hset => exact h.restart hset
  | loop => exact h
  | count => exact h
  | store f hf => exact h.of_sound hs.same (h0.ofDraws _ hf)
  | lock => exact h

end Sys2Proof.Machine

open Sys2Proof Sys2Proof.Machine

/-- Settles O39: where a group is placed is a law of lists (`placeGroup_others`, `placeGroup_commands`, `placeGroup_apart`); and
every move of which a step consists keeps the queue sound (`State.Move.queueKept`), since at most four actuators are guarded (R60)
and fences are joined, so that the guard's items alone never fill the queue. -/
theorem guardGroupGoesFirst : Obligations.GuardGroupGoesFirst := by
  refine ⟨fun group q hq => ?_, fun s t hs h => step_induction (P := State.QueueKept) (fun _ _ => id)
    (fun _ => State.QueueKept.powerUp) (fun _ => State.QueueKept.powerDown) State.Move.queueKept h hs⟩
  have hfirst := (guardFirst_iff q).mpr hq
  refine ⟨placeGroup_others group q, (guardFirst_iff _).mp (guardFirst_placeGroup group hfirst),
    placeGroup_commands group hfirst, fun a b hab => ?_⟩
  have apart := placeGroup_apart group hfirst
  rw [hab] at apart
  exact (List.isChain_cons_cons.mp apart.right_of_append).1 ⟨rfl, rfl⟩
end

section
/-!
PROOFS. The In-Flight Table: what an answer, a valve's STATUS and the two timeouts write, and what they tell the origin of the command
(spec/04 R63, R64, R66, R73 to R76).
The proofs are elaborated one after the other, which keeps the whole text inside the sandbox's memory.
-/

set_option Elab.async false

namespace Sys2Proof.Machine

variable {e : Env} {i : Nat} {a b : ActRuntime} {j j' j'' : Jobs} {l l' : List Flight} {x : Slot} {s : State}

/-! ## What is written of one actuator and of the table -/

/-- Of what a command alone writes of the actuators and of the In-Flight Table, actuator `i` has become as the record `a` says, and
the table is `l`. -/
structure Jobs.Wrote (i : Nat) (a : ActRuntime) (l : List Flight) (j j' : Jobs) : Prop where
  view : (j'.act i).view = a.view
  others : j.OthersKeep i j'
  flight : j'.flight = l
  length : j'.acts.length = j.acts.length

theorem Jobs.Wrote.refl (i : Nat) (j : Jobs) : Jobs.Wrote i (j.act i) j.flight j j := ⟨rfl, fun _ _ => rfl, rfl, rfl⟩

/-- A change that leaves what a command alone writes. -/
theorem Jobs.Wrote.hull (h : Jobs.Wrote i a l j j') (hh : j''.hull = j'.hull) : Jobs.Wrote i a l j j'' where
  view := (Jobs.hull_act hh i).trans h.view
  others k hk := (Jobs.hull_act hh k).trans (h.others k hk)
  flight := (congrArg Hull.flight hh).trans h.flight
  length := (Jobs.hull_acts_length hh).trans h.length

theorem Jobs.Wrote.updateAct (f : ActRuntime → ActRuntime) (hi : i < j.acts.length) (h : Jobs.Wrote i a l j j')
    (hf : (f (j'.act i)).view = b.view) : Jobs.Wrote i b l j (j'.updateAct i f) where
  view := (congrArg ActRuntime.view (Jobs.act_updateAct_self f (h.length ▸ hi))).trans hf
  others k hk := (congrArg ActRuntime.view (Jobs.act_updateAct_ne f hk)).trans (h.others k hk)
  flight := h.flight
  length := (updateAt_length ..).trans h.length

theorem Jobs.Wrote.table (l' : List Flight) (h : Jobs.Wrote i a l j j') : Jobs.Wrote i a l' j { j' with flight := l' } :=
  ⟨h.view, h.others, rfl, h.length⟩

theorem ActRuntime.view_fault (h : a.view = b.view) : a.fault = b.fault := congrArg (fun v => v.2.2.1) h

theorem ActRuntime.view_settled (h : a.view = b.view) : a.settled = b.settled := congrArg (fun v => v.2.2.2.2.2) h

theorem ActRuntime.view_reported (h : a.view = b.view) : a.reported = b.reported := congrArg (fun v => v.1) h

theorem ActRuntime.view_resp (h : a.view = b.view) : a.resp = b.resp := congrArg (fun v => v.2.1) h

/-- R64: the fault alone. -/
theorem ActRuntime.view_setFault (f : ActFault) (h : a.view = b.view) :
    ({ a with fault := f } : ActRuntime).view = ({ b with fault := f } : ActRuntime).view :=
  congrArg (fun v => (v.1, v.2.1, f, v.2.2.2)) h

theorem Jobs.Wrote.setFault (f : ActFault) (hi : i < j.acts.length) (h : Jobs.Wrote i a l j j') :
    Jobs.Wrote i { a with fault := f } l j (j'.setFault i f) :=
  h.updateAct _ hi (ActRuntime.view_setFault f h.view)

/-- R64: a JAMMED fault is cleared, and another stays. -/
theorem Jobs.Wrote.unjam (hi : i < j.acts.length) (h : Jobs.Wrote i a l j j') :
    Jobs.Wrote i { a with fault := if a.fault = .jammed then .none else a.fault } l j (j'.unjam i) := by
  have hf : (j'.act i).fault = a.fault := ActRuntime.view_fault h.view
  unfold Jobs.unjam
  rw [hf]
  by_cases hjam : a.fault = .jammed
  · rw [if_pos hjam, if_pos (by simp [hjam])]
    exact h.setFault _ hi
  · rw [if_neg hjam, if_neg (by simp [hjam])]
    exact h

/-- R71, R73: an entry that leaves the table leaves no other entry for its actuator. -/
theorem Jobs.Wrote.endFlight (f : Flight) (r : CmdResult) (h : Jobs.Wrote i a l j j') :
    Jobs.Wrote i a (l.filter (fun g => g.idx != f.idx)) j (j'.endFlight e f r) :=
  h.flight ▸ (h.table (j'.flight.filter (fun g => g.idx != f.idx))).hull
    ((Jobs.Moves.refl (dry := false)).fenceTest.tellOrigin f.origin f.idx f.action r).hull_eq

/-- R63: a reported state is set, and the actuator is RESPONSIVE. -/
theorem Jobs.wrote_setReported (e : Env) (code : StateCode) (duty : Nat) (hi : i < j.acts.length) :
    Jobs.Wrote i { j.act i with
      reported := ⟨code, if code = .duty then duty else 0, (j.act i).reported.units⟩, resp := .responsive }
      j.flight j (j.setReported e i code duty none) := by
  have hr := (Jobs.Wrote.refl i j).updateAct (fun a =>
    { a with reported := ⟨code, if code == .duty then duty else 0, a.reported.units⟩, resp := .responsive })
    (b := { j.act i with
      reported := ⟨code, if code = .duty then duty else 0, (j.act i).reported.units⟩, resp := .responsive }) hi (by simp)
  unfold Jobs.setReported
  by_cases hwas : (j.act i).resp = .unresponsive
  · exact (if_pos (beq_iff_eq.mpr hwas)).symm ▸ hr.hull (Jobs.hull_lostTest ..)
  · exact (if_neg (mt beq_iff_eq.mp hwas)).symm ▸ hr

/-- R75: a status report writes the reported state alone. -/
theorem Jobs.wrote_statusReport (e : Env) (code : StateCode) (duty : Nat) (hi : i < j.acts.length) :
    Jobs.Wrote i { j.act i with
      reported := ⟨code, if code = .duty then duty else 0, (j.act i).reported.units⟩, resp := .responsive }
      j.flight j (j.statusReport e i code duty none) := by
  have hr := Jobs.wrote_setReported e code duty hi
  unfold Jobs.statusReport
  exact iteInduction (motive := Jobs.Wrote i _ j.flight j) (fun _ => hr) fun _ =>
    hr.hull ((Jobs.hull_tellDiscord ..).trans (Jobs.hull_updateAct i (fun a => { a with discord := true }) (fun _ => rfl) _))

/-! ## Answers (R73) -/

/-- R64, R73: the fault after an answer to the entry's action. -/
def Flight.faultAfter (f : Flight) (code : StateCode) (was : ActFault) : ActFault :=
  match f.action with
  | .position opened =>
      if code = asked opened then (if was = .jammed then .none else was)
      else if code = .moving then was else if code = .jammed then .jammed else was
  | _ => was

/-- R73: the In-Flight Table after an answer to the entry's action. -/
def Flight.tableAfter (e : Env) (f : Flight) (code : StateCode) (l : List Flight) : List Flight :=
  match f.action with
  | .position _ =>
      if code = .moving then l.map (fun g => if g.idx = f.idx then
        { g with travelling := true, timer := e.now + e.set.general.valveTravel } else g)
      else l.filter (fun g => g.idx != f.idx)
  | _ => l.filter (fun g => g.idx != f.idx)

theorem asked_ne_moving (opened : Bool) : asked opened ≠ .moving := by cases opened <;> decide

theorem asked_ne_jammed (opened : Bool) : asked opened ≠ .jammed := by cases opened <;> decide

/-- R73: what an answer to the entry's action writes. -/
theorem Jobs.Wrote.answered (f : Flight) (code : StateCode) (duty : Nat) (hf : f.idx = i) (hi : i < j.acts.length)
    (h : Jobs.Wrote i a l j j') :
    Jobs.Wrote i { a with fault := f.faultAfter code a.fault } (f.tableAfter e code l) j (j'.answered e f code duty) := by
  subst hf
  unfold Jobs.answered Flight.faultAfter Flight.tableAfter
  cases f.action with
  | query | switch | duty => exact h.endFlight f _
  | position opened =>
    simp only [beq_iff_eq]
    by_cases hasked : code = asked opened
    · have hmoving : code ≠ .moving := hasked ▸ asked_ne_moving opened
      simp only [if_pos hasked, if_neg hmoving]
      exact (h.unjam hi).endFlight f .done
    · by_cases hmoving : code = .moving
      · simp only [if_neg hasked, if_pos hmoving]
        exact h.flight ▸ h.table _
      · by_cases hjammed : code = .jammed
        · simp only [if_neg hasked, if_neg hmoving, if_pos hjammed]
          exact (h.setFault .jammed hi).endFlight f .failed
        · simp only [if_neg hasked, if_neg hmoving, if_neg hjammed]
          exact h.endFlight f .failed

/-- R63, R73: the record of an actuator once an ANSWER item has been read. -/
def ActRuntime.read (a : ActRuntime) (code : StateCode) (duty : Nat) : ActRuntime :=
  { a with reported := ⟨code, if code = .duty then duty else 0, a.reported.units⟩, resp := .responsive }

/-- R73: an answer to the action of the entry in AWAITING_ACK. -/
theorem Jobs.wrote_ackItem_answer {f : Flight} {code : StateCode} (e : Env) (hi : i < j.acts.length)
    (hc : stateCodeOf x.field2 = some code) (hf : j.flightOf i = some f) (ht : f.travelling = false)
    (ha : f.action.code = x.field1) :
    Jobs.Wrote i { (j.act i).read code x.field3 with fault := f.faultAfter code (j.act i).fault }
      (f.tableAfter e code j.flight) j (j.ackItem e i x) := by
  unfold Jobs.ackItem
  rw [hc]
  dsimp only
  rw [hf]
  dsimp only
  rw [if_pos (by simp [ht, ha])]
  exact (Jobs.wrote_setReported e code x.field3 hi).answered f code x.field3 (Jobs.flightOf_idx hf) hi

/-- R75: any other answer is a status report. -/
theorem Jobs.wrote_ackItem_report {code : StateCode} (e : Env) (hi : i < j.acts.length)
    (hc : stateCodeOf x.field2 = some code)
    (hn : ∀ f, j.flightOf i = some f → f.travelling = true ∨ f.action.code ≠ x.field1) :
    Jobs.Wrote i ((j.act i).read code x.field3) j.flight j (j.ackItem e i x) := by
  unfold Jobs.ackItem
  rw [hc]
  dsimp only
  split
  · next f hf =>
    rw [if_neg (by simpa [or_iff_not_imp_left] using hn f hf)]
    exact Jobs.wrote_statusReport e code x.field3 hi
  · exact Jobs.wrote_statusReport e code x.field3 hi

/-- R63, R73: of what a command alone writes of the actuators, ANSWER items have set the reported state of actuator `i`, and left its
settled command and the other actuators. -/
structure Jobs.AckTaken (i : Nat) (items : List Slot) (j j' : Jobs) : Prop where
  reported : (j'.act i).reported = items.foldl reportedByAnswer (j.act i).reported
  settled : (j'.act i).settled = (j.act i).settled
  others : j.OthersKeep i j'
  length : j'.acts.length = j.acts.length

theorem Jobs.Wrote.ackTaken {code : StateCode} {g : ActFault} (hc : stateCodeOf x.field2 = some code)
    (h : Jobs.Wrote i { (j.act i).read code x.field3 with fault := g } l j j') : Jobs.AckTaken i [x] j j' where
  reported := (ActRuntime.view_reported h.view).trans (by simp [reportedByAnswer, hc, ActRuntime.read])
  settled := (ActRuntime.view_settled (b := { (j.act i).read code x.field3 with fault := g }) h.view)
  others := h.others
  length := h.length

theorem Jobs.ackTaken_ackItem (e : Env) (x : Slot) (hi : i < j.acts.length) : Jobs.AckTaken i [x] j (j.ackItem e i x) := by
  cases hc : stateCodeOf x.field2 with
  | none =>
    have hj : j.ackItem e i x = j := by unfold Jobs.ackItem; rw [hc]
    rw [hj]
    exact ⟨by simp [reportedByAnswer, hc], rfl, fun _ _ => rfl, rfl⟩
  | some code =>
    by_cases ha : ∃ f, j.flightOf i = some f ∧ f.travelling = false ∧ f.action.code = x.field1
    · obtain ⟨f, hf, ht, ha⟩ := ha
      exact (Jobs.wrote_ackItem_answer e hi hc hf ht ha).ackTaken hc
    · refine (Jobs.wrote_ackItem_report e hi hc fun f hf => ?_).ackTaken (g := (j.act i).fault) hc
      by_contra hn
      rw [not_or, Bool.not_eq_true, not_not] at hn
      exact ha ⟨f, hf, hn⟩

theorem Jobs.AckTaken.append {xs ys : List Slot} (h : Jobs.AckTaken i xs j j') (h' : Jobs.AckTaken i ys j' j'') :
    Jobs.AckTaken i (xs ++ ys) j j'' where
  reported := by rw [h'.reported, h.reported, List.foldl_append]
  settled := h'.settled.trans h.settled
  others k hk := (h'.others k hk).trans (h.others k hk)
  length := h'.length.trans h.length

theorem Jobs.AckTaken.hull {xs : List Slot} (h : Jobs.AckTaken i xs j j') (hh : j''.hull = j'.hull) :
    Jobs.AckTaken i xs j j'' where
  reported := (ActRuntime.view_reported (Jobs.hull_act hh i)).trans h.reported
  settled := (ActRuntime.view_settled (Jobs.hull_act hh i)).trans h.settled
  others k hk := (Jobs.hull_act hh k).trans (h.others k hk)
  length := (Jobs.hull_acts_length hh).trans h.length

/-- R63: the items of an ACK cell, in slot order. -/
theorem ackItems_taken (items : List Slot) (s : State) (hi : i < s.jobs.acts.length) :
    let t := items.foldl (fun s x => s.work (fun e j => j.ackItem e i x)) s
    t.env = s.env ∧ t.loop = s.loop ∧ Jobs.AckTaken i items s.jobs t.jobs := by
  induction items generalizing s with
  | nil => exact ⟨rfl, rfl, rfl, rfl, fun _ _ => rfl, rfl⟩
  | cons x items ih =>
    have hx : Jobs.AckTaken i [x] s.jobs (s.work (fun e j => j.ackItem e i x)).jobs :=
      (Jobs.ackTaken_ackItem s.env x hi).hull (State.hull_work ..)
    obtain ⟨henv, hloop, hrest⟩ := ih (s.work (fun e j => j.ackItem e i x)) (hx.length ▸ hi)
    exact ⟨henv, hloop, hx.append hrest⟩

theorem takeAck_known {bs : List Byte} (ha : s.env.set.actAt (cellSource bs) = some i) :
    s.takeAck bs = (slotsWith 0x21 bs).foldl (fun s x => s.work (fun e j => j.ackItem e i x)) s := by
  unfold State.takeAck
  rw [ha]

/-- R5, R73: an ACK to the own address is the Actuator unit's. -/
theorem classifyField_ack {bs : List Byte} (hk : cellKind bs = kindAck) (hd : cellDest bs = s.env.set.general.ownAddress) :
    s.classifyField bs = s.takeAck bs := by
  unfold State.classifyField
  dsimp only
  rw [if_neg (by rw [hk]; decide), if_neg (by rw [hk]; decide), if_pos hd, if_pos hk]

/-! ## Tellings (R66) -/

/-- What an origin is told depends on what waits alone. -/
theorem Jobs.tellOrigin_work (o : Origin) (i : Nat) (c : Action) (r : CmdResult) (h : j'.work = j.work) :
    (j'.tellOrigin e o i c r).work = (j.tellOrigin e o i c r).work := by
  have post : ∀ ev, (j'.post ev).work = (j.post ev).work := fun ev => congrArg (· ++ [ev]) h
  unfold Jobs.tellOrigin
  cases o with
  | fill | guard | frost | allotment | operator => exact post _
  | frostLeft =>
    dsimp only
    split
    · exact post _
    · exact h
  | start =>
    dsimp only
    split
    · exact h
    · exact post _

theorem Jobs.spaceTest_work (e : Env) (j : Jobs) : (j.spaceTest e).work = j.work := by
  unfold Jobs.spaceTest
  split <;> rfl

theorem Jobs.fenceTest_work (e : Env) (j : Jobs) : (j.fenceTest e).work = j.work := by
  unfold Jobs.fenceTest
  split
  · exact Jobs.spaceTest_work ..
  · rfl

/-- R66: an entry that ends hands its origin the result, and nothing else is handed on. -/
theorem Jobs.endFlight_work (f : Flight) (r : CmdResult) (h : j'.work = j.work) :
    (j'.endFlight e f r).work = (j.tellOrigin e f.origin f.idx f.action r).work :=
  Jobs.tellOrigin_work _ _ _ _ ((Jobs.fenceTest_work ..).trans h)

theorem Jobs.lostTest_work (e : Env) (j : Jobs) : (j.lostTest e).work = j.work := by
  unfold Jobs.lostTest
  split <;> rfl

theorem Jobs.setReported_work (e : Env) (i : Nat) (c : StateCode) (d : Nat) (u : Option Nat) (j : Jobs) :
    (j.setReported e i c d u).work = j.work := by
  unfold Jobs.setReported
  exact iteInduction (motive := fun j' : Jobs => j'.work = j.work) (fun _ => Jobs.lostTest_work ..) fun _ => rfl

theorem Jobs.unjam_work (i : Nat) (j : Jobs) : (j.unjam i).work = j.work := by
  unfold Jobs.unjam
  split <;> rfl

/-- R73: whether an answer fits the action of its entry: then the result is DONE. -/
def Action.fits (c : Action) (code : StateCode) (duty : Nat) : Prop :=
  match c with
  | .query => True
  | .switch on => code = (if on then .on else .off)
  | .duty d => (code = .duty ∧ duty = d) ∨ (code = .off ∧ d = 0)
  | .position opened => code = asked opened

theorem Jobs.answered_work_fits {f : Flight} {code : StateCode} {duty : Nat} (h : j'.work = j.work)
    (hf : f.action.fits code duty) :
    (j'.answered e f code duty).work = (j.tellOrigin e f.origin f.idx f.action .done).work := by
  have hdone := Jobs.endFlight_work (e := e) f .done h
  have hunjam := Jobs.endFlight_work (e := e) f .done ((Jobs.unjam_work f.idx j').trans h)
  unfold Jobs.answered
  generalize f.action = c at hf hdone hunjam ⊢
  cases c with
  | query => exact hdone
  | switch on | duty d =>
    dsimp only
    rw [if_pos (by simpa [Action.fits] using hf)]
    exact hdone
  | position opened =>
    dsimp only
    rw [if_pos (by simpa [Action.fits] using hf)]
    exact hunjam

theorem Jobs.answered_work_failed {f : Flight} {code : StateCode} {duty : Nat} (h : j'.work = j.work)
    (hf : ¬ f.action.fits code duty) (hm : ¬ ((∃ opened, f.action = .position opened) ∧ code = .moving)) :
    (j'.answered e f code duty).work = (j.tellOrigin e f.origin f.idx f.action .failed).work := by
  have hfailed := Jobs.endFlight_work (e := e) f .failed h
  have hjammed := Jobs.endFlight_work (e := e) f .failed (show (j'.setFault f.idx .jammed).work = j.work from h)
  unfold Jobs.answered
  generalize f.action = c at hf hm hfailed hjammed ⊢
  cases c with
  | query => exact absurd trivial hf
  | switch on | duty d =>
    dsimp only
    rw [if_neg (by simpa [Action.fits] using hf)]
    exact hfailed
  | position opened =>
    have hmoving : code ≠ .moving := fun hc => hm ⟨⟨opened, rfl⟩, hc⟩
    dsimp only
    rw [if_neg (by simpa [Action.fits] using hf), if_neg (by simpa using hmoving)]
    exact iteInduction (motive := fun k : Jobs => k.work = _) (fun _ => hjammed) fun _ => hfailed

theorem Jobs.answered_work_moving {f : Flight} {opened : Bool} (duty : Nat) (hact : f.action = .position opened) :
    (j.answered e f .moving duty).work = j.work := by
  unfold Jobs.answered
  rw [hact]
  dsimp only
  rw [if_neg (by simpa using (asked_ne_moving opened).symm), if_pos (by decide)]

/-- R73: an answer to the action of the entry in AWAITING_ACK. -/
theorem Jobs.ackItem_answer {f : Flight} {code : StateCode} (hc : stateCodeOf x.field2 = some code)
    (hf : j.flightOf i = some f) (ht : f.travelling = false) (ha : f.action.code = x.field1) :
    j.ackItem e i x = (j.setReported e i code x.field3 none).answered e f code x.field3 := by
  unfold Jobs.ackItem
  rw [hc]
  dsimp only
  rw [hf]
  dsimp only
  rw [if_pos (by simp [ht, ha])]

/-! ## A valve's STATUS (R76) -/

/-- R76: a STATE item for a valve whose entry is a POSITION. -/
theorem Jobs.statusItem_position {f : Flight} {opened : Bool} {code : StateCode} (hf : j.flightOf i = some f)
    (hact : f.action = .position opened) (hc : stateCodeOf x.field1 = some code) (hk : (e.set.act i).kind ≠ .heater) :
    j.statusItem e i x = (j.setReported e i code x.field2 none).positionStatus e f opened code := by
  have hheater : ((e.set.act i).kind == .heater) = false := by simpa using hk
  unfold Jobs.statusItem
  rw [hc]
  dsimp only
  rw [hf, hheater]
  dsimp only
  rw [hact]
  rfl

/-- R64, R76: what the STATUS writes. -/
theorem Jobs.Wrote.positionStatus (f : Flight) (opened : Bool) (code : StateCode) (hf : f.idx = i) (hi : i < j.acts.length)
    (h : Jobs.Wrote i a l j j') :
    (code = asked opened → Jobs.Wrote i { a with fault := if a.fault = .jammed then .none else a.fault }
        (l.filter (fun g => g.idx != i)) j (j'.positionStatus e f opened code))
      ∧ (code = .jammed → Jobs.Wrote i { a with fault := .jammed } (l.filter (fun g => g.idx != i)) j
        (j'.positionStatus e f opened code))
      ∧ (code ≠ asked opened → code ≠ .jammed → j'.positionStatus e f opened code = j') := by
  subst hf
  unfold Jobs.positionStatus
  refine ⟨fun hc => ?_, fun hc => ?_, fun hn hj => ?_⟩
  · exact (if_pos (beq_iff_eq.mpr hc)).symm ▸ (h.unjam hi).endFlight f .done
  · rw [if_neg (by simpa [hc] using (asked_ne_jammed opened).symm), if_pos (by simp [hc])]
    exact (h.setFault .jammed hi).endFlight f .failed
  · rw [if_neg (by simpa using hn), if_neg (by simpa using hj)]

/-- R66, R76: what the STATUS hands on. -/
theorem Jobs.positionStatus_work (f : Flight) (opened : Bool) (code : StateCode) (h : j'.work = j.work) :
    (code = asked opened →
        (j'.positionStatus e f opened code).work = (j.tellOrigin e f.origin f.idx f.action .done).work)
      ∧ (code = .jammed →
        (j'.positionStatus e f opened code).work = (j.tellOrigin e f.origin f.idx f.action .failed).work) := by
  unfold Jobs.positionStatus
  refine ⟨fun hc => ?_, fun hc => ?_⟩
  · rw [if_pos (by simp [hc])]
    exact Jobs.endFlight_work f .done ((Jobs.unjam_work ..).trans h)
  · rw [if_neg (by simpa [hc] using (asked_ne_jammed opened).symm), if_pos (by simp [hc])]
    exact Jobs.endFlight_work f .failed h

/-! ## Timeouts (R74) -/

theorem Jobs.flightOf_congr (h : j'.flight = j.flight) (i : Nat) : j'.flightOf i = j.flightOf i := by
  unfold Jobs.flightOf
  rw [h]

/-- R74: an entry in AWAITING_ACK that times out. -/
theorem Jobs.ackTimeout_awaiting {f : Flight} (hf : j.flightOf i = some f) (ht : f.travelling = false) :
    j.ackTimeout e i = (((j.count (fun c => { c with ackTimeouts10 := c.ackTimeouts10 + 1#32 })).updateAct i
      (fun a => { a with resp := .unresponsive })).raise e .actuatorLost).endFlight e f .timedOut := by
  unfold Jobs.ackTimeout
  rw [hf]
  dsimp only
  rw [if_neg (by simp [ht])]

/-- R74: an entry in TRAVELLING that times out. -/
theorem Jobs.travelTimeout_travelling {f : Flight} (hf : j.flightOf i = some f) (ht : f.travelling = true) :
    j.travelTimeout e i = (j.updateAct i (fun a =>
      { a with reported := ⟨.jammed, 0, a.reported.units⟩, fault := .jammed })).endFlight e f .timedOut := by
  unfold Jobs.travelTimeout
  rw [hf]
  dsimp only
  rw [if_pos ht]

/-- The end of an entry moves neither a counter of a command nor a kind that belongs to commands alone. -/
theorem Jobs.moves_endFlight (e : Env) (f : Flight) (r : CmdResult) (j : Jobs) :
    Jobs.Moves false e { j with flight := j.flight.filter (fun g => g.idx != f.idx) } (j.endFlight e f r) :=
  Jobs.Moves.refl.fenceTest.tellOrigin ..

/-- R74: an entry in AWAITING_ACK that times out leaves the actuator UNRESPONSIVE. -/
theorem Jobs.wrote_ackTimeout {f : Flight} (e : Env) (hi : i < j.acts.length) (hf : j.flightOf i = some f)
    (ht : f.travelling = false) :
    Jobs.Wrote i { j.act i with resp := .unresponsive } (j.flight.filter (fun g => g.idx != i)) j (j.ackTimeout e i) := by
  have h := (Jobs.Wrote.refl i j).updateAct (b := { j.act i with resp := .unresponsive })
    (fun a => { a with resp := .unresponsive }) hi rfl
  have hcounted : Jobs.Wrote i { j.act i with resp := .unresponsive } j.flight j
      (((j.count (fun c => { c with ackTimeouts10 := c.ackTimeouts10 + 1#32 })).updateAct i
        (fun a => { a with resp := .unresponsive })).raise e .actuatorLost) := ⟨h.view, h.others, h.flight, h.length⟩
  rw [Jobs.ackTimeout_awaiting hf ht, ← Jobs.flightOf_idx hf]
  exact Jobs.flightOf_idx hf ▸ hcounted.endFlight f .timedOut

theorem Jobs.ackTimeout_counts {f : Flight} (e : Env) (hf : j.flightOf i = some f) (ht : f.travelling = false) :
    (j.ackTimeout e i).counters.ackTimeouts10 = j.counters.ackTimeouts10 + 1#32 := by
  rw [Jobs.ackTimeout_awaiting hf ht]
  exact congrArg (fun h : Hull => h.counters.ackTimeouts10) (Jobs.moves_endFlight e f .timedOut _).hull_eq

theorem Jobs.ackTimeout_raises {f : Flight} (e : Env) (hf : j.flightOf i = some f) (ht : f.travelling = false)
    (hconds : j.tele.conds.length = 22) : (j.ackTimeout e i).active .actuatorLost = true := by
  rw [Jobs.ackTimeout_awaiting hf ht]
  exact (congrArg Prod.fst ((Jobs.moves_endFlight e f .timedOut _).flags (k := .actuatorLost) rfl)).trans
    (Jobs.raise_active _ _ hconds)

/-- R74: an entry in TRAVELLING that times out leaves the actuator JAMMED. -/
theorem Jobs.wrote_travelTimeout {f : Flight} (e : Env) (hi : i < j.acts.length) (hf : j.flightOf i = some f)
    (ht : f.travelling = true) :
    Jobs.Wrote i { j.act i with reported := ⟨.jammed, 0, (j.act i).reported.units⟩, fault := .jammed }
      (j.flight.filter (fun g => g.idx != i)) j (j.travelTimeout e i) := by
  rw [Jobs.travelTimeout_travelling hf ht, ← Jobs.flightOf_idx hf]
  exact Jobs.flightOf_idx hf ▸ ((Jobs.Wrote.refl i j).updateAct
    (b := { j.act i with reported := ⟨.jammed, 0, (j.act i).reported.units⟩, fault := .jammed }) _ hi rfl).endFlight f .timedOut

theorem Jobs.travelTimeout_counts {f : Flight} (e : Env) (hf : j.flightOf i = some f) (ht : f.travelling = true) :
    (j.travelTimeout e i).counters.ackTimeouts10 = j.counters.ackTimeouts10 := by
  rw [Jobs.travelTimeout_travelling hf ht]
  exact congrArg (fun h : Hull => h.counters.ackTimeouts10) (Jobs.moves_endFlight e f .timedOut _).hull_eq

end Sys2Proof.Machine

open Sys2Proof Sys2Proof.Machine

/-- Settles O29: an ACK is taken item by item (`ackItems_taken`); what a single ANSWER item writes is `Jobs.wrote_ackItem_answer` for
the answer to the entry's action and `Jobs.wrote_ackItem_report` for any other. -/
theorem ackAnswersFlightEntry : Obligations.AckAnswersFlightEntry := by
  intro bs s hp hshape hg hkind hdest
  obtain ⟨r, hr, hexec⟩ := exec_field (c := .ack bs) rfl hp hg
  have hset := hr.frame.set
  rw [classifyField_ack hkind (by rw [hset]; exact hdest)] at hexec
  cases ha : s.env.set.actAt (cellSource bs) with
  | none =>
    have hnone : r.takeAck bs = r.tally (Jobs.countBad .field) := by
      unfold State.takeAck
      rw [hset, ha]
    rw [hnone] at hexec
    refine ⟨_, hexec, hset, hr.frame.clock, (congrArg Loop.lQueue hr.loop :), fun _ => ⟨hr.flight, ?_, hr.view⟩, nofun⟩
    exact congrArg (· + 1#32) hr.bad3F
  | some i =>
    have hi : i < r.jobs.acts.length := by
      have := firstWhere_lt ha
      rw [hshape.1.2.1] at this
      rw [hr.acts, hshape.acts]
      exact this
    rw [takeAck_known (by rw [hset]; exact ha)] at hexec
    obtain ⟨henv, hloop, htaken⟩ := ackItems_taken (slotsWith 0x21 bs) r hi
    refine ⟨_, hexec, (congrArg Env.set henv).trans hset, (congrArg Env.clock henv).trans hr.frame.clock,
      (congrArg Loop.lQueue hloop).trans (congrArg Loop.lQueue hr.loop :), nofun, fun k hk => ?_⟩
    cases hk
    have hview := hr.view i
    refine ⟨htaken.reported.trans (by rw [ActRuntime.view_reported hview]),
      htaken.settled.trans (ActRuntime.view_settled hview), fun m hm => (htaken.others m hm).trans (hr.view m),
      fun x code hx hc => ?_⟩
    rw [hx]
    dsimp only [List.foldl_cons, List.foldl_nil]
    rw [State.creditWatch_jobs]
    have hhull := State.hull_work (fun e j => j.ackItem e i x) r
    have hflight : ∀ f, s.jobs.flightOf i = some f → r.jobs.flightOf i = some f := fun f hf =>
      (Jobs.flightOf_congr hr.flight i).trans hf
    have hfault : (r.jobs.act i).fault = (s.jobs.act i).fault := ActRuntime.view_fault hview
    refine ⟨?_, fun f hf ht hact => ?_, fun hn => ?_⟩
    · by_cases hans : ∃ f, r.jobs.flightOf i = some f ∧ f.travelling = false ∧ f.action.code = x.field1
      · obtain ⟨f, hf, ht, hact⟩ := hans
        exact ActRuntime.view_resp ((Jobs.wrote_ackItem_answer r.env hi hc hf ht hact).hull hhull).view
      · refine ActRuntime.view_resp ((Jobs.wrote_ackItem_report r.env hi hc fun f hf => ?_).hull hhull).view
        by_contra hn
        rw [not_or, Bool.not_eq_true, not_not] at hn
        exact hans ⟨f, hf, hn⟩
    · have hw := (Jobs.wrote_ackItem_answer r.env hi hc (hflight f hf) ht hact).hull hhull
      have hidx := Jobs.flightOf_idx hf
      have hw_fault := ActRuntime.view_fault hw.view
      have hw_flight := hw.flight
      unfold Flight.tableAfter at hw_flight
      dsimp only [Flight.faultAfter, ActRuntime.read] at hw_fault
      rw [hfault] at hw_fault
      rw [hidx, hr.flight, hr.frame.now, hset] at hw_flight
      cases hfa : f.action with
      | query | switch | duty =>
        rw [hfa] at hw_fault hw_flight
        exact ⟨hw_flight, hw_fault⟩
      | position opened =>
        rw [hfa] at hw_fault hw_flight
        dsimp only at hw_fault hw_flight ⊢
        by_cases hmoving : code = .moving
        · rw [if_pos hmoving] at hw_flight ⊢
          rw [if_neg (hmoving ▸ (asked_ne_moving opened).symm), if_pos hmoving] at hw_fault
          exact ⟨hw_fault, hw_flight⟩
        · rw [if_neg hmoving] at hw_flight ⊢
          rw [if_neg hmoving] at hw_fault
          exact ⟨hw_flight, hw_fault⟩
    · have hw := (Jobs.wrote_ackItem_report r.env hi hc fun f hf => ?_).hull hhull
      · exact ⟨hw.flight.trans hr.flight, (ActRuntime.view_fault hw.view).trans hfault⟩
      · rw [Jobs.flightOf_congr hr.flight] at hf
        rcases hn with hn | ⟨f', hf', hn⟩
        · rw [hn] at hf; cases hf
        · rw [hf] at hf'; cases hf'; exact hn

/-- Settles O30: what an answer and a STATUS hand on is `Jobs.answered_work_fits`, `Jobs.answered_work_failed` and
`Jobs.positionStatus_work`; what a STATUS writes is `Jobs.Wrote.positionStatus`. -/
theorem endedEntryTellsItsOrigin : Obligations.EndedEntryTellsItsOrigin := by
  refine ⟨fun e i x j f code hf ht ha hc => ?_, fun e i x j f opened code hi hf hact hc hk => ?_⟩
  · have hidx := Jobs.flightOf_idx hf
    have hwork := Jobs.setReported_work e i code x.field3 none j
    rw [Jobs.ackItem_answer hc hf ht ha]
    subst hidx
    refine ⟨fun hfits => Jobs.answered_work_fits hwork ?_, fun hfits hmoving => Jobs.answered_work_failed hwork ?_ hmoving,
      fun _ hmoving => ?_⟩
    · unfold Action.fits
      exact hfits
    · unfold Action.fits
      exact hfits
    · obtain ⟨⟨opened, hact⟩, rfl⟩ := hmoving
      exact (Jobs.answered_work_moving x.field3 hact).trans hwork
  · have hidx := Jobs.flightOf_idx hf
    have hwork := Jobs.setReported_work e i code x.field2 none j
    have hwrote := Jobs.wrote_setReported e code x.field2 hi
    have hsame := hwrote.positionStatus (e := e) f opened code hidx hi
    have htold := Jobs.positionStatus_work (e := e) f opened code hwork
    rw [Jobs.statusItem_position hf hact hc hk]
    subst hidx
    generalize j.setReported e f.idx code x.field2 none = j' at hwork hwrote hsame htold ⊢
    obtain ⟨hasked, hjammed, hother⟩ := hsame
    refine ⟨?_, fun hc => ?_, fun hc => ?_, fun hn hj => ?_⟩
    · by_cases h1 : code = asked opened
      · exact ActRuntime.view_reported (hasked h1).view
      · by_cases h2 : code = .jammed
        · exact ActRuntime.view_reported (hjammed h2).view
        · rw [hother h1 h2]
          exact ActRuntime.view_reported hwrote.view
    · exact ⟨(hasked hc).flight, ActRuntime.view_fault (hasked hc).view, htold.1 hc⟩
    · exact ⟨(hjammed hc).flight, ActRuntime.view_fault (hjammed hc).view, htold.2 hc⟩
    · rw [hother hn hj]
      exact ⟨hwrote.flight, congrArg (fun v => v.2.2.1) hwrote.view, hwork⟩

/-- Settles O31: each timeout writes its actuator's record and ends the entry (`Jobs.wrote_ackTimeout`,
`Jobs.wrote_travelTimeout`); what it causes writes nothing that a command alone writes. -/
theorem timeoutsEndFlightEntry : Obligations.TimeoutsEndFlightEntry := by
  intro i s f hp hshape hi hf
  have hhull := s.settled_hull
  have hflight : s.settled.jobs.flight = s.jobs.flight := congrArg Hull.flight hhull
  have hf' : s.settled.jobs.flightOf i = some f := (Jobs.flightOf_congr hflight i).trans hf
  have hview := Jobs.hull_act hhull
  have hlen : i < s.settled.jobs.acts.length := by rw [Jobs.hull_acts_length hhull, hshape.acts]; exact hi
  have hcounters : s.settled.jobs.counters.ackTimeouts10 = s.jobs.counters.ackTimeouts10 :=
    congrArg (fun h : Hull => h.counters.ackTimeouts10) hhull
  refine ⟨fun ht => ?_, fun ht => ?_⟩
  · have hexec : exec (.ackTimeoutExpiry i) s = .next (s.settled.work (fun e j => j.ackTimeout e i)).creditWatch :=
      exec_powered hp (by simp) (by simp)
    have hafter := State.hull_work (fun e j => j.ackTimeout e i) s.settled
    have hw := (Jobs.wrote_ackTimeout s.settled.env hlen hf' ht).hull hafter
    have hcount := (congrArg (fun h : Hull => h.counters.ackTimeouts10) hafter).trans
      ((Jobs.ackTimeout_counts _ hf' ht).trans (congrArg (· + 1#32) hcounters))
    have hraised := (State.active_change (fun p => (p.1, p.2.ackTimeout p.1 i)) rfl s.settled).trans
      (Jobs.ackTimeout_raises _ hf' ht (State.Move.settled.shaped hshape).conds)
    refine ⟨_, hexec, rfl, rfl, ?_⟩
    rw [State.creditWatch_jobs]
    exact ⟨hflight ▸ hw.flight, congrArg (fun v => v.2.1) hw.view,
      (congrArg (fun v => v.1) hw.view).trans (ActRuntime.view_reported (hview i)),
      (congrArg (fun v => v.2.2.1) hw.view).trans (ActRuntime.view_fault (hview i)),
      (congrArg (fun v => v.2.2.2.2.2) hw.view).trans (ActRuntime.view_settled (hview i)), hcount, hraised,
      fun k hk => (hw.others k hk).trans (hview k)⟩
  · have hexec : exec (.valveTravelExpiry i) s = .next (s.settled.work (fun e j => j.travelTimeout e i)).creditWatch :=
      exec_powered hp (by simp) (by simp)
    have hafter := State.hull_work (fun e j => j.travelTimeout e i) s.settled
    have hw := (Jobs.wrote_travelTimeout s.settled.env hlen hf' ht).hull hafter
    have hunits := congrArg Reported.units (ActRuntime.view_reported (hview i))
    have hcount := (congrArg (fun h : Hull => h.counters.ackTimeouts10) hafter).trans
      ((Jobs.travelTimeout_counts _ hf' ht).trans hcounters)
    refine ⟨_, hexec, rfl, rfl, ?_⟩
    rw [State.creditWatch_jobs]
    exact ⟨hflight ▸ hw.flight, hunits ▸ congrArg (fun v => v.1) hw.view, congrArg (fun v => v.2.2.1) hw.view,
      (congrArg (fun v => v.2.2.2.2.2) hw.view).trans (ActRuntime.view_settled (hview i)), hcount,
      fun k hk => (hw.others k hk).trans (hview k)⟩
end

section
/-!
PROOFS. The operator path (spec/04 R78): what joins the Command Queue without moving a commanded state, what is refused, and the
changes after which the settling finds nothing moved.
The proofs are elaborated one after the other, which keeps the whole text inside the sandbox's memory.
-/

set_option Elab.async false

namespace Sys2Proof.Machine

variable {e : Env} {i : Nat} {a : Action} {o : Origin} {j j' : Jobs} {x : OperatorItem} {s : State} {bs : List Byte}

/-! ## Changes in which nothing that is observed moves -/

/-- Nothing that a complete change looks at has moved from `j` to `j'`: the commanded and reported states, the quantities and the
mark of ACTUATOR_DISCORD. -/
structure Jobs.Still (e : Env) (j j' : Jobs) : Prop where
  acts : j'.acts = j.acts
  commanded : ∀ i, j'.commanded i = j.commanded i
  figures : figures e j' = figures e j
  discord : j'.active .actuatorDiscord = j.active .actuatorDiscord

theorem Jobs.Still.act (h : j.Still e j') (i : Nat) : j'.act i = j.act i := by
  unfold Jobs.act
  rw [h.acts]

theorem Jobs.Still.discordSettled (h : j.Still e j') (hs : j.DiscordSettled e) : j'.DiscordSettled e := by
  refine ⟨fun i hi hm => ?_, ?_⟩
  · rw [h.commanded, h.act]
    exact hs.1 i hi (h.act i ▸ hm)
  · rw [h.discord]
    simpa only [h.act] using hs.2

theorem Jobs.Still.movedTold (h : j.Still e j') (s : Settings) : movedTold s j j' = [] := by
  have hcmd : commandedMoved j j' = [] := filter_range_nil _ fun i => by rw [h.commanded]; exact bne_self_eq_false _
  have hrep : reportedMoved j j' = [] := filter_range_nil _ fun i => by rw [h.act]; exact bne_self_eq_false _
  unfold Sys2Proof.Machine.movedTold
  rw [hcmd, hrep]
  rfl

/-- The quantities read no more of the time and the heads than the settings name. -/
theorem figures_set {e0 : Env} (h : e0.set = e.set) (j : Jobs) : figures e0 j = figures e j := by
  unfold figures
  rw [h]

/-- Where nothing that is observed moves, nothing is handed on. -/
theorem Jobs.Still.observe {e0 : Env} (h : j.Still e j') (hs : j.DiscordSettled e) (he : e0.set = e.set) :
    observe e0 j e j' = j' := by
  have hfig : j'.tele.figuresChanged (teleEnv e j') (Machine.figures e0 j) = j'.tele := by
    rw [figures_set he, ← h.figures]
    exact Tele.figuresChanged_same (teleEnv e j') _
  unfold Machine.observe
  dsimp only
  rw [Jobs.discordTest_settled (h.discordSettled hs), h.movedTold]
  show j'.tele' _ e = _
  unfold Jobs.tele'
  dsimp only
  rw [hfig]

theorem Jobs.Still.refl (e : Env) (j : Jobs) : j.Still e j := ⟨rfl, fun _ => rfl, rfl, rfl⟩

/-- R67: the commanded states come of the queue; what else the quantities read is the same. -/
theorem figures_queue (q : List QueueItem) (h : ∀ i, ({ j with queue := q } : Jobs).commanded i = j.commanded i) :
    figures e { j with queue := q } = figures e j := by
  have hact : ∀ i, ({ j with queue := q } : Jobs).actFigure i = j.actFigure i := fun i => by
    cases i with
    | none => rfl
    | some i =>
      unfold Jobs.actFigure
      dsimp only
      rw [h]
      rfl
  unfold figures
  dsimp only
  simp only [hact]
  rfl

/-- An item that asks for no commanded state moves none at the tail. -/
theorem Jobs.still_join (e : Env) (j : Jobs) {item : QueueItem} (h : ∀ i, item.asks i = none) :
    j.Still e { j with queue := j.queue ++ [item] } := by
  have hc : ∀ i, ({ j with queue := j.queue ++ [item] } : Jobs).commanded i = j.commanded i := fun i => by
    unfold Jobs.commanded
    dsimp only
    rw [List.filterMap_append, List.filterMap_cons_none (h i), List.filterMap_nil, List.append_nil]
    rfl
  exact ⟨rfl, hc, figures_queue _ hc, rfl⟩

theorem Jobs.still_tele (e : Env) (j : Jobs) (t : Tele) (c : Counters) (w : List Event)
    (h : t.flags .actuatorDiscord = j.tele.flags .actuatorDiscord) :
    j.Still e { j with tele := t, counters := c, work := w } := ⟨rfl, fun _ => rfl, rfl, congrArg Prod.fst h⟩

/-- On a settled part, a change that tells nothing and in which nothing that is observed moves is all that happens. -/
theorem State.work_still {f : Env → Jobs → Jobs} (hs : s.Settled) (h : s.jobs.Still s.env (f s.env s.jobs))
    (hw : (f s.env s.jobs).work = []) (hb : (f s.env s.jobs).fill.startBar = []) :
    s.work f = { s with jobs := f s.env s.jobs } := by
  obtain ⟨-, -, hdiscord⟩ := hs
  show ({ s with env := s.env, jobs := (observe s.env s.jobs s.env (f s.env s.jobs)).settle s.env } : State) = _
  rw [h.observe hdiscord rfl, Jobs.settle_idle _ hw hb]

/-- A telling that its block ignores is all that is left to take. -/
theorem Jobs.settle_ignored {ev : Event} (hs : j.DiscordSettled e) (hw : j.work = [ev]) (hb : j.fill.startBar = [])
    (hev : Jobs.handle e ev { j with work := [] } = { j with work := [] }) : j.settle e = { j with work := [] } := by
  have htaken : Jobs.takeEvent e ev { j with work := [] } = { j with work := [] } := by
    unfold Jobs.takeEvent
    rw [hev]
    exact (Jobs.Still.refl e _).observe hs rfl
  have hidle : ({ j with work := [] } : Jobs).unbar = { j with work := [] } := by
    unfold Jobs.unbar Jobs.plan
    rw [← hb]
  unfold Jobs.settle Config.settleLimit Jobs.drain
  rw [hw]
  dsimp only
  rw [htaken]
  exact hidle

/-- What a change comes to depends on what it makes of the part alone. -/
theorem State.work_congr {f g : Env → Jobs → Jobs} (h : f s.env s.jobs = g s.env s.jobs) : s.work f = s.work g := by
  unfold State.work Part.work Part.change State.part
  dsimp only
  rw [h]

/-! ## The cells of the operator path (R6, R78) -/

/-- R6: the counting of the cell leaves a settled part settled. -/
theorem lineCounted_settled (h : s.Ready) : (lineCounted s).Settled := h.2

/-- R6, R78: an intercepted COMMAND cell with one item. -/
theorem exec_operator {c : Instr} (hc : arrivalOf c = some (.line, bs)) (hs : s.Ready) (h : Intercepted bs s i [x]) :
    exec c s = .next ((lineCounted s).work (fun e j => j.operatorItem e i x)).creditWatch := by
  obtain ⟨hgood, hkind, hgov, hitems⟩ := h
  have hclass : (lineCounted s).classifyLine bs = (lineCounted s).takeCommand i bs := by
    unfold State.classifyLine
    dsimp only
    rw [hgov, if_pos ⟨hkind, rfl⟩]
  rw [exec_line hc hs hgood, hclass]
  unfold State.takeCommand
  rw [hitems]
  rfl

/-- R78: an item other than a RELEASE whose checks refuse it. -/
theorem Jobs.operatorItem_refused {r : Reason} (hx : x ≠ .release) (h : j.operatorChecks e i x = some r) :
    j.operatorItem e i x = j.refuse e .operator i x.action r := by
  unfold Jobs.operatorItem
  rw [if_neg hx, h]

/-- R78: an item other than a RELEASE and a SWITCH on that passes its checks. -/
theorem Jobs.operatorItem_queued (hx : x ≠ .release) (ha : x.action ≠ .switch true) (h : j.operatorChecks e i x = none) :
    j.operatorItem e i x = j.operatorQueue e i x := by
  unfold Jobs.operatorItem
  rw [if_neg hx, h]
  dsimp only
  rw [if_neg ha]

/-! ## Joining the queue (R67, R68) -/

theorem Jobs.join_room (item : QueueItem) (h : j.queue.length < 16) :
    j.join item = ({ j with queue := j.queue ++ [item] }, true) := if_pos h

theorem Jobs.join_full (item : QueueItem) (h : 16 ≤ j.queue.length) : j.join item = (j, false) :=
  if_neg (Nat.not_lt.mpr h)

theorem Jobs.enqueue_room (e : Env) (o : Origin) (a : Action) (h : j.RoomFor i) :
    j.enqueue e o i a = (({ j with queue := j.queue ++ [QueueItem.cmd i a o] } : Jobs).afterQueued e i a, true) := by
  have hnone : (lastSegment j.queue).find? (fun x => x.isFor i) = none :=
    List.find?_eq_none.mpr fun x hx => by rw [h.2 x hx]; decide
  have hplace : j.place e o i a = ({ j with queue := j.queue ++ [QueueItem.cmd i a o] }, true) := by
    unfold Jobs.place
    rw [hnone]
    exact Jobs.join_room _ h.1
  unfold Jobs.enqueue
  rw [hplace]

/-- R78: an accepted item starts the operator hold, a QUERY apart. -/
theorem Jobs.operatorQueue_room (e : Env) (x : OperatorItem) (h : j.RoomFor i) :
    j.operatorQueue e i x =
      if x.action = .query then ({ j with queue := j.queue ++ [QueueItem.cmd i x.action .operator] } : Jobs).afterQueued e i x.action
      else (({ j with queue := j.queue ++ [QueueItem.cmd i x.action .operator] } : Jobs).afterQueued e i x.action).startHold e i := by
  unfold Jobs.operatorQueue
  rw [Jobs.enqueue_room e .operator x.action h]

theorem Jobs.operatorChecks_query (h : (e.set.act i).manual = false) : j.operatorChecks e i .query = none := by
  simp [Jobs.operatorChecks, Jobs.checks, Jobs.guardCheck, Jobs.restCheck, OperatorItem.action, OperatorItem.fits, h]

theorem Jobs.operatorChecks_manual (j : Jobs) (x : OperatorItem) (h : (e.set.act i).manual = true) :
    j.operatorChecks e i x = some .manual := if_pos h

/-! ## Fences (R71, R78) -/

theorem Jobs.fenceTest_command {rest : List QueueItem} (h : j.queue = QueueItem.cmd i a o :: rest) : j.fenceTest e = j := by
  unfold Jobs.fenceTest
  rw [h]
  cases j.flight <;> rfl

theorem Jobs.fenceTest_flight (h : j.flight ≠ []) : j.fenceTest e = j := by
  unfold Jobs.fenceTest
  cases hf : j.flight with
  | nil => exact absurd hf h
  | cons f l => rfl

/-- R78: a FENCE cell behind a waiting command or a command in flight. -/
theorem Jobs.operatorFence_waits (hroom : j.queue.length < 16)
    (h : j.flight ≠ [] ∨ ∃ i a o rest, j.queue = QueueItem.cmd i a o :: rest) :
    j.operatorFence e = { j with queue := j.queue ++ [QueueItem.fence false] } := by
  unfold Jobs.operatorFence
  rw [Jobs.join_room _ hroom]
  dsimp only
  rcases h with hf | ⟨i, a, o, rest, hq⟩
  · exact Jobs.fenceTest_flight hf
  · exact Jobs.fenceTest_command (rest := rest ++ [QueueItem.fence false]) (by rw [hq]; rfl)

/-- R71, R78: a FENCE cell at an idle queue: the leading fence is removed at once. -/
theorem Jobs.operatorFence_idle (hq : j.queue = []) (hf : j.flight = []) (hfull : j.active .queueFull = false) :
    j.operatorFence e = j := by
  have hsame : ({ j with queue := [], flight := [] } : Jobs) = j := by rw [← hq, ← hf]
  unfold Jobs.operatorFence
  rw [Jobs.join_room _ (by rw [hq]; decide)]
  dsimp only
  unfold Jobs.fenceTest
  dsimp only
  rw [hf, hq]
  show Jobs.spaceTest e { j with queue := [], flight := [] } = j
  rw [hsame]
  unfold Jobs.spaceTest
  rw [Jobs.clear_inactive e _ hfull, ite_self]

/-- R78: a FENCE cell at a full queue. -/
theorem Jobs.operatorFence_full (h : 16 ≤ j.queue.length) : j.operatorFence e = j.countRefusal.raise e .queueFull := by
  unfold Jobs.operatorFence
  rw [Jobs.join_full _ h]

/-- R6, R78: a FENCE cell at the operator path. -/
theorem exec_fence (hs : s.Ready) (hg : goodCell bs = true) (hk : cellKind bs = kindFence)
    (hd : cellDest bs = s.env.set.general.ownAddress ∨ cellDest bs = 0
      ∨ (s.env.set.governedAt (cellDest bs)).isSome = true) :
    exec (.fence bs) s = .next ((lineCounted s).work (fun e j => j.operatorFence e)).creditWatch := by
  have hclass : (lineCounted s).classifyLine bs = (lineCounted s).work (fun e j => j.operatorFence e) := by
    unfold State.classifyLine
    dsimp only
    rw [if_neg fun h => absurd (hk.symm.trans h.1) (by decide), if_neg fun h => absurd (hk.symm.trans h.1) (by decide),
      if_pos ⟨hk, hd⟩]
  rw [exec_line rfl hs hg, hclass]

/-! ## Refusals (R66) -/

theorem Jobs.refuse_operator (e : Env) (i : Nat) (a : Action) (r : Reason) (j : Jobs) :
    j.refuse e .operator i a r = { j with
      tele := j.tele.postNotice (teleEnv e j) (.refusal i a.code r.code), work := j.work ++ [.operatorResult i a (.refused r)],
      counters := { j.counters with refusals11 := j.counters.refusals11 + 1#32 } } := rfl

/-- R78: a refusal withdraws no operator claim by itself. -/
theorem Jobs.operatorResult_refused (e : Env) (i : Nat) (a : Action) (r : Reason) (j : Jobs) :
    j.operatorResult e i a (.refused r) = j := if_neg (by simp)

/-- R66, R78: the refusal of an operator's item causes nothing else. -/
theorem State.work_refuse (hs : s.Settled) (i : Nat) (a : Action) (r : Reason) :
    s.work (fun e j => j.refuse e .operator i a r)
      = { s with jobs := { s.jobs.refuse s.env .operator i a r with work := [] } } := by
  obtain ⟨hw, hb, hdiscord⟩ := hs
  have hstill : s.jobs.Still s.env (s.jobs.refuse s.env .operator i a r) :=
    Jobs.still_tele s.env s.jobs _ _ _ ((Tele.same_postNotice ..).flags _)
  have hwork : (s.jobs.refuse s.env .operator i a r).work = [.operatorResult i a (.refused r)] := by
    rw [Jobs.refuse_operator, hw]
    rfl
  have hsettle := Jobs.settle_ignored (hstill.discordSettled hdiscord) hwork hb (Jobs.operatorResult_refused s.env i a r _)
  show ({ s with env := s.env, jobs := (observe s.env s.jobs s.env (s.jobs.refuse s.env .operator i a r)).settle s.env }
    : State) = _
  rw [hstill.observe hdiscord rfl, hsettle]

end Sys2Proof.Machine

open Sys2Proof Sys2Proof.Machine

/-- Settles O34: a QUERY asks for no commanded state, so that nothing that is observed moves (`Jobs.still_join`). -/
theorem operatorQueryIsQueued : Obligations.OperatorQueryIsQueued := by
  intro bs s i hs hint hmanual hroom
  have hitem : (lineCounted s).jobs.operatorItem s.env i .query
      = { (lineCounted s).jobs with queue := s.jobs.queue ++ [QueueItem.cmd i .query .operator] } := by
    rw [Jobs.operatorItem_queued (by decide) (by decide) (Jobs.operatorChecks_query hmanual),
      Jobs.operatorQueue_room (j := (lineCounted s).jobs) s.env .query hroom]
    rfl
  have hstill := Jobs.still_join s.env (lineCounted s).jobs (item := QueueItem.cmd i .query .operator)
    fun k => ite_self _
  obtain ⟨hw, hb, -⟩ := hs.2
  rw [exec_operator rfl hs hint, State.work_still (lineCounted_settled hs) (hitem ▸ hstill) (hitem ▸ hw) (hitem ▸ hb), hitem]

/-- Settles O35: the refusal is all that happens (`State.work_refuse`). -/
theorem manualActuatorRefusesOperator : Obligations.ManualActuatorRefusesOperator := by
  intro bs s i x hs hint hmanual hx c hc
  have harr : arrivalOf c = some (.line, bs) := by
    simp only [List.mem_cons, List.not_mem_nil, or_false] at hc
    rcases hc with rfl | rfl | rfl | rfl <;> rfl
  have hwork : (lineCounted s).work (fun e j => j.operatorItem e i x)
      = (lineCounted s).work (fun e j => j.refuse e .operator i x.action .manual) :=
    State.work_congr (f := fun e j => j.operatorItem e i x) (g := fun e j => j.refuse e .operator i x.action .manual)
      (Jobs.operatorItem_refused hx (Jobs.operatorChecks_manual _ x hmanual))
  refine ⟨_, hwork ▸ exec_operator harr hs hint, rfl, ?_⟩
  rw [State.work_refuse (lineCounted_settled hs), State.creditWatch_jobs, Jobs.refuse_operator]
  exact ⟨rfl, rfl, rfl, rfl, rfl, rfl, rfl, rfl⟩

/-- Settles O37: the three cases are `Jobs.operatorFence_waits`, `Jobs.operatorFence_idle` and `Jobs.operatorFence_full`; in none
does anything move that is observed. -/
theorem fenceJoinsQueue : Obligations.FenceJoinsQueue := by
  intro bs s hs hshape hg hk hd
  have hexec := exec_fence hs hg hk hd
  have hsettled := lineCounted_settled hs
  obtain ⟨hw, hb, -⟩ := hs.2
  refine ⟨fun hroom hwait => ?_, fun hq hf hfull => ?_, fun hfull => ⟨_, hexec, ?_⟩⟩
  · have hitem := Jobs.operatorFence_waits (e := s.env) (j := (lineCounted s).jobs) hroom hwait
    have hstill := Jobs.still_join s.env (lineCounted s).jobs (item := .fence false) fun _ => rfl
    rw [hexec, State.work_still hsettled (hitem ▸ hstill) (hitem ▸ hw) (hitem ▸ hb), hitem]
  · have hitem := Jobs.operatorFence_idle (e := s.env) (j := (lineCounted s).jobs) hq hf hfull
    rw [hexec, State.work_still hsettled (hitem.symm ▸ Jobs.Still.refl ..) (hitem.symm ▸ hw) (hitem.symm ▸ hb), hitem]
  · have hitem := Jobs.operatorFence_full (e := s.env) (j := (lineCounted s).jobs) hfull
    have hstill : (lineCounted s).jobs.Still s.env ((lineCounted s).jobs.countRefusal.raise s.env .queueFull) :=
      Jobs.still_tele s.env (lineCounted s).jobs _ _ _ (Tele.flags_raise_ne _ (by decide) _)
    rw [State.work_still hsettled (hitem.symm ▸ hstill) (hitem.symm ▸ hw) (hitem.symm ▸ hb), hitem]
    exact ⟨rfl, rfl, Jobs.raise_active s.env _ hshape.conds, rfl, rfl⟩
end

section
/-!
PROOFS. The operator path (spec/04 R78) and what it leaves: rest timers and claims (R65, R139), operator holds (R79), and the checks of
a resting pump (R65, R66).
The proofs are elaborated one after the other, which keeps the whole text inside the sandbox's memory.
-/

set_option Elab.async false

namespace Sys2Proof.Machine

variable {e : Env} {i n : Nat} {a : Action} {o : Origin} {j j' : Jobs} {x : OperatorItem} {s : State} {bs : List Byte}

/-! ## Items that start a hold (R78, R79) -/

/-- R78: an accepted item other than a QUERY and a SWITCH on joins the queue and starts the hold. -/
theorem exec_operator_queued {c : Instr} (hc : arrivalOf c = some (.line, bs)) (hs : s.Ready) (hint : Intercepted bs s i [x])
    (hchecks : s.jobs.operatorChecks s.env i x = none) (hroom : s.jobs.RoomFor i) (hx : x ≠ .release)
    (hon : x.action ≠ .switch true) (hquery : x.action ≠ .query) :
    exec c s = .next ((lineCounted s).work (fun e j =>
      (({ j with queue := j.queue ++ [QueueItem.cmd i x.action .operator] } : Jobs).afterQueued e i x.action).startHold e i)).creditWatch := by
  rw [exec_operator hc hs hint]
  refine congrArg (fun t : State => Host.Outcome.next t.creditWatch) (State.work_congr (f := fun e j => j.operatorItem e i x)
    (g := fun e j => (({ j with queue := j.queue ++ [QueueItem.cmd i x.action .operator] } : Jobs).afterQueued e i
      x.action).startHold e i) ?_)
  exact (Jobs.operatorItem_queued (j := (lineCounted s).jobs) hx hon hchecks).trans
    ((Jobs.operatorQueue_room (j := (lineCounted s).jobs) s.env x hroom).trans (if_neg hquery))

/-- R78, R139: a SWITCH on that passes its checks, for a pump. -/
theorem Jobs.operatorItem_start (hchecks : j.operatorChecks e i (.switch 1) = none) (hn : e.set.pumpNumber i = some n) :
    j.operatorItem e i (.switch 1) =
      if ((j.postOperator e n).claim (n - 1)).granted < (e.set.act i).rated then
        ((j.postOperator e n).refuse e .operator i (.switch true) .noPower).withdrawOperator e i
      else (j.postOperator e n).operatorQueue e i (.switch 1) := by
  unfold Jobs.operatorItem
  rw [if_neg (by decide), hchecks]
  dsimp only
  rw [if_pos (by decide)]
  unfold Jobs.operatorStart
  rw [hn]
  rfl

/-- R79, R90, R122: what the start of a hold tells. -/
theorem Jobs.tellHold_eq (e : Env) (i : Nat) (b : Bool) (j : Jobs) :
    j.tellHold e i b = { j with work := j.work ++ (match (e.set.act i).kind with
      | .pump => [.fillEval]
      | .valveInlet => [.fillEval]
      | .valveDrain => []
      | .heater => [.frostHold i b]) } := by
  unfold Jobs.tellHold
  cases (e.set.act i).kind with
  | valveDrain => dsimp only; rw [List.append_nil]
  | pump | valveInlet | heater => rfl

/-! ## Claims (R139) -/

theorem Jobs.claim_updateClaim_ne {m : Nat} (f : Claim → Claim) (h : m ≠ n) : (j.updateClaim n f).claim m = j.claim m :=
  updateAt_getD_ne f _ _ _ _ h

/-- A claim that is posted is one of the table's. -/
theorem Jobs.claim_updateClaim_posted (f : Claim → Claim) (h : (j.claim n).operator = true) :
    (j.updateClaim n f).claim n = f (j.claim n) := by
  refine updateAt_getD_self f _ _ _ (Nat.lt_of_not_le fun hle => ?_)
  unfold Jobs.claim at h
  rw [List.getD_eq_getElem?_getD, List.getElem?_eq_none hle] at h
  cases h

theorem Jobs.withdrawOperator_unposted (h : ∀ n, e.set.pumpNumber i = some n → (j.claim (n - 1)).operator = false) :
    j.withdrawOperator e i = j := by
  unfold Jobs.withdrawOperator
  cases hn : e.set.pumpNumber i with
  | none => rfl
  | some n => exact if_neg (by rw [h n hn]; decide)

theorem Jobs.withdrawOperator_posted (hn : e.set.pumpNumber i = some n) (h : (j.claim (n - 1)).operator = true) :
    j.withdrawOperator e i = (j.updateClaim (n - 1) (fun c => { c with operator := false })).startPass := by
  unfold Jobs.withdrawOperator
  rw [hn]
  exact if_pos h

/-! ## A queued OFF (R65, R78) -/

theorem Jobs.afterQueued_other (h : ¬ (a = .switch false ∧ (e.set.act i).kind = .pump)) : j.afterQueued e i a = j :=
  if_neg (by simpa using h)

theorem Jobs.afterQueued_off (h : (e.set.act i).kind = .pump) :
    j.afterQueued e i (.switch false) = (j.startRest e i).withdrawOperator e i := if_pos (by simp [h])

/-- R65: the rest timer, unless MIN_REST is 0. -/
theorem Jobs.startRest_eq (e : Env) (i : Nat) (j : Jobs) :
    j.startRest e i = if e.set.general.minRest = 0 then j else
      { j with acts := updateAt (fun a => { a with rest := some (e.now + e.set.general.minRest) }) i j.acts,
               work := .pass :: j.work } := rfl

/-- R65: what starting the rest timer leaves of the actuators. -/
theorem Jobs.act_startRest (e : Env) (hi : i < j.acts.length) :
    (j.startRest e i).act i = { j.act i with
        rest := if e.set.general.minRest = 0 then (j.act i).rest else some (e.now + e.set.general.minRest) }
      ∧ ∀ m, m ≠ i → (j.startRest e i).act m = j.act m := by
  rw [Jobs.startRest_eq]
  by_cases h0 : e.set.general.minRest = 0
  · rw [if_pos h0, if_pos h0]
    exact ⟨rfl, fun _ _ => rfl⟩
  · rw [if_neg h0, if_neg h0]
    exact ⟨Jobs.act_updateAct_self _ hi, fun m hm => Jobs.act_updateAct_ne _ hm⟩

/-- R65: what starting the rest timer leaves of the rest. -/
theorem Jobs.startRest_frame (e : Env) (i : Nat) (j : Jobs) :
    j.startRest e i = { j with acts := (j.startRest e i).acts, work := (j.startRest e i).work }
      ∧ (∀ m, (j.startRest e i).claim m = j.claim m)
      ∧ (e.set.general.minRest ≠ 0 → (j.startRest e i).work.head? = some .pass)
      ∧ (e.set.general.minRest = 0 → (j.startRest e i).work = j.work) := by
  rw [Jobs.startRest_eq]
  split
  · next h => exact ⟨rfl, fun _ => rfl, fun hn => absurd h hn, fun _ => rfl⟩
  · next h => exact ⟨rfl, fun _ => rfl, fun _ => rfl, fun hz => absurd hz h⟩

/-- The claim that a queued OFF withdraws: that of the pump which the entry then is (log 29). -/
def Jobs.Posted (e : Env) (i : Nat) (j : Jobs) (m : Nat) : Prop :=
  ∃ n, e.set.pumpNumber i = some n ∧ m = n - 1 ∧ (j.claim m).operator = true

/-- R139: the withdrawal, by whether a claim is posted. -/
theorem Jobs.withdrawOperator_cases (e : Env) (i : Nat) (j : Jobs) :
    ((¬ ∃ m, j.Posted e i m) ∧ j.withdrawOperator e i = j)
      ∨ ∃ m, j.Posted e i m ∧ (∀ m', j.Posted e i m' → m' = m)
        ∧ j.withdrawOperator e i = (j.updateClaim m (fun c => { c with operator := false })).startPass := by
  by_cases h : ∃ m, j.Posted e i m
  · obtain ⟨m, n, hn, rfl, hop⟩ := h
    refine .inr ⟨n - 1, ⟨n, hn, rfl, hop⟩, fun m' hm' => ?_, Jobs.withdrawOperator_posted hn hop⟩
    obtain ⟨n', hn', rfl, -⟩ := hm'
    rw [hn] at hn'
    cases hn'
    rfl
  · exact .inl ⟨h, Jobs.withdrawOperator_unposted fun n hn => Bool.eq_false_iff.mpr fun hop => h ⟨n - 1, n, hn, rfl, hop⟩⟩

/-! ## Ends of a hold (R79) -/

theorem Jobs.endHold_none {c : HoldEnd} (h : (j.act i).hold = none) : j.endHold e c i = j :=
  if_pos (by rw [h]; rfl)

/-- R79: an end that the guard does not make takes the parked request. -/
theorem Jobs.endHold_over {c : HoldEnd} (h : (j.act i).hold ≠ none) (hc : c ≠ .guard) :
    j.endHold e c i = j.holdOver e c.code i := by
  have hcode : (c == HoldEnd.guard) = false := by simpa using hc
  unfold Jobs.endHold Jobs.holdOver
  rw [if_neg (by simpa using h)]
  dsimp only
  cases (j.act i).parked with
  | none => rfl
  | some p =>
    obtain ⟨a, o⟩ := p
    dsimp only
    rw [hcode]
    rfl

/-- R79: what follows the end of a hold starts none. -/
theorem Jobs.holdOver_hold (e : Env) (c : Nat) (hi : i < j.acts.length) : ((j.holdOver e c i).act i).hold = none := by
  have hended : ((j.updateAct i (fun a => { a with hold := none, parked := none })).act i).hold = none := by
    rw [Jobs.act_updateAct_self _ hi]
  have hmoves : Jobs.Moves false e (j.updateAct i (fun a => { a with hold := none, parked := none })) (j.holdOver e c i) := by
    have htold := ((Jobs.Moves.refl (dry := false) (e := e)
      (j0 := j.updateAct i (fun a => { a with hold := none, parked := none }))).notice (.holdEnded i c)).tellHold i false
    unfold Jobs.holdOver
    dsimp only
    cases (j.act i).parked with
    | none => exact htold
    | some p => exact htold.take p.2 i p.1
  exact hmoves.keeps.hold i hended

/-- R79: a hold that ends is over when all that it causes is. -/
theorem State.work_hold (f : Env → Jobs → Jobs) (h : ((f s.env s.jobs).act i).hold = none) :
    ((s.work f).jobs.act i).hold = none := (Jobs.moves_complete ..).keeps.hold i h

/-- A change that does nothing is all that happens on a settled part. -/
theorem State.work_idle {f : Env → Jobs → Jobs} (hs : s.Settled) (h : f s.env s.jobs = s.jobs) : s.work f = s :=
  State.change_idle (f := fun p => (p.1, f p.1 p.2)) hs (congrArg (Prod.mk s.env) h)

/-! ## A resting pump (R65, R66) -/

theorem Jobs.checks_resting (hk : (e.set.act i).kind = .pump) (hrest : (j.act i).rest ≠ none) (hlatch : j.guard.latch = false)
    (hband : j.guard.band ≠ .highHigh) : j.checks e i (.switch true) = some .resting := by
  have hguard : j.guardCheck e i (.switch true) = none := by
    unfold Jobs.guardCheck
    dsimp only
    rw [if_pos (by simp [hk]), if_neg (by simp [hlatch]), if_neg (by simpa using hband)]
  unfold Jobs.checks
  rw [hguard]
  exact if_pos (by simpa [hk, Option.isSome_iff_ne_none] using hrest)

end Sys2Proof.Machine

open Sys2Proof Sys2Proof.Machine

/-- Settles O32: the queued item is `exec_operator_queued`, what a queued OFF leaves is `Jobs.startRest_frame` and
`Jobs.withdrawOperator_cases`. -/
theorem operatorCommandIsQueued : Obligations.OperatorCommandIsQueued := by
  refine ⟨fun bs s i x hs hint hchecks hroom => ⟨?_, ?_, ?_⟩, fun e j i hi => ?_, fun e j i a hi => ⟨?_, ?_⟩⟩
  · rintro rfl
    exact exec_operator_queued rfl hs hint hchecks hroom (by decide) (by decide) (by decide)
  · rintro field rfl
    exact exec_operator_queued rfl hs hint hchecks hroom (by simp) (by simp [OperatorItem.action]) (by simp [OperatorItem.action])
  · rintro d rfl
    exact exec_operator_queued rfl hs hint hchecks hroom (by simp) (by simp [OperatorItem.action]) (by simp [OperatorItem.action])
  · refine ⟨?_, ?_, fun m hm => ?_⟩
    · unfold Jobs.startHold
      rw [Jobs.tellHold_eq]
      rfl
    · unfold Jobs.startHold
      rw [Jobs.tellHold_eq]
      exact Jobs.act_updateAct_self _ hi
    · unfold Jobs.startHold
      rw [Jobs.tellHold_eq]
      exact Jobs.act_updateAct_ne _ hm
  · exact Jobs.afterQueued_other
  · rintro ⟨rfl, hkind⟩
    obtain ⟨hself, hothers⟩ := Jobs.act_startRest e hi
    obtain ⟨hframe, hclaim, hpass, hrest⟩ := Jobs.startRest_frame e i j
    have hposted : ∀ m, (j.startRest e i).Posted e i m ↔ j.Posted e i m := fun m => by unfold Jobs.Posted; rw [hclaim]
    rw [Jobs.afterQueued_off hkind]
    rcases Jobs.withdrawOperator_cases e i (j.startRest e i) with ⟨hnone, heq⟩ | ⟨m, hm, hunique, heq⟩
    · rw [heq]
      have hnone : ¬ ∃ m, j.Posted e i m := fun ⟨m, hm⟩ => hnone ⟨m, (hposted m).mpr hm⟩
      exact ⟨by rw [hframe], hself, hothers, fun m hm => absurd ⟨m, hm⟩ hnone, fun m _ => hclaim m,
        fun h => hpass (h.resolve_right hnone), fun h _ => hrest h⟩
    · rw [heq]
      refine ⟨by rw [hframe]; rfl, hself, hothers, fun m' hm' => ?_, fun m' hm' => ?_, fun _ => rfl,
        fun _ h => absurd ⟨m, (hposted m).mp hm⟩ h⟩
      · obtain rfl := hunique m' ((hposted m').mpr hm')
        obtain ⟨-, -, -, hop⟩ := hm
        exact (Jobs.claim_updateClaim_posted _ hop).trans (by rw [hclaim])
      · have hne : m' ≠ m := by
          rintro rfl
          exact hm' ((hposted m').mp hm)
        exact (Jobs.claim_updateClaim_ne _ hne).trans (hclaim m')

/-- Settles O33: a SWITCH on is never a QUERY nor an OFF, so that it queues with its hold alone; the withdrawal is
`Jobs.withdrawOperator_posted`. -/
theorem operatorStartNeedsFullGrant : Obligations.OperatorStartNeedsFullGrant := by
  refine ⟨fun bs s i n hs hint hchecks hn => ⟨fun hgrant hroom => ?_, fun hshort => ?_⟩,
    fun e j i => ⟨Jobs.withdrawOperator_unposted, fun n hn hop => ?_⟩⟩
  · rw [exec_operator rfl hs hint]
    refine congrArg (fun t : State => Host.Outcome.next t.creditWatch)
      (State.work_congr (f := fun e j => j.operatorItem e i (.switch 1))
        (g := fun e k => ({ k.postOperator e n with queue := (k.postOperator e n).queue
          ++ [QueueItem.cmd i (.switch true) .operator] } : Jobs).startHold e i) ?_)
    exact (Jobs.operatorItem_start (j := (lineCounted s).jobs) hchecks hn).trans
      ((if_neg (Nat.not_lt.mpr hgrant)).trans (Jobs.operatorQueue_room s.env (.switch 1) hroom))
  · rw [exec_operator rfl hs hint]
    refine congrArg (fun t : State => Host.Outcome.next t.creditWatch)
      (State.work_congr (f := fun e j => j.operatorItem e i (.switch 1))
        (g := fun e k => ((k.postOperator e n).refuse e .operator i (.switch true) .noPower).withdrawOperator e i) ?_)
    exact (Jobs.operatorItem_start (j := (lineCounted s).jobs) hchecks hn).trans (if_pos hshort)
  · rw [Jobs.withdrawOperator_posted hn hop]
    exact ⟨rfl, Jobs.claim_updateClaim_posted _ hop, fun m hm => Jobs.claim_updateClaim_ne _ hm⟩

/-- Settles O36: `Jobs.endHold_over` says what an end of a hold is, and no telling starts a hold again. -/
theorem holdEndsByReleaseOrExpiry : Obligations.HoldEndsByReleaseOrExpiry := by
  refine ⟨fun bs s i hs hshape hi hint => ⟨fun hnone => ?_, fun hhold => ?_⟩,
    fun s i hs hshape hi => ⟨fun hnone => ?_, fun hhold => ?_⟩⟩
  · rw [exec_operator rfl hs hint, State.work_idle (lineCounted_settled hs)]
    exact Jobs.endHold_none (j := (lineCounted s).jobs) hnone
  · have hwork : (lineCounted s).work (fun e j => j.operatorItem e i .release)
        = (lineCounted s).work (fun e j => j.holdOver e 1 i) :=
      State.work_congr (f := fun e j => j.operatorItem e i .release) (g := fun e j => j.holdOver e 1 i)
        (Jobs.endHold_over (j := (lineCounted s).jobs) (c := .release) hhold (by decide))
    exact ⟨_, (exec_operator rfl hs hint).trans (congrArg (fun t : State => Host.Outcome.next t.creditWatch) hwork),
      State.work_hold (s := lineCounted s) (fun e j => j.holdOver e 1 i)
        (Jobs.holdOver_hold (j := (lineCounted s).jobs) s.env 1 (hshape.acts.symm ▸ hi)), rfl⟩
  · rw [exec_ready hs (by simp) (by simp)]
    exact congrArg (fun t : State => Host.Outcome.next t.creditWatch)
      (State.work_idle (f := fun e j => j.holdExpiry e i) hs.2 (Jobs.endHold_none hnone))
  · have hwork : s.work (fun e j => j.holdExpiry e i) = s.work (fun e j => j.holdOver e 3 i) :=
      State.work_congr (f := fun e j => j.holdExpiry e i) (g := fun e j => j.holdOver e 3 i)
        (Jobs.endHold_over (c := .expiry) hhold (by decide))
    exact ⟨_, (exec_ready hs (by simp) (by simp)).trans
        (congrArg (fun t : State => Host.Outcome.next t.creditWatch) hwork),
      State.work_hold (fun e j => j.holdOver e 3 i) (Jobs.holdOver_hold s.env 3 (hshape.acts.symm ▸ hi)), rfl⟩

/-- Settles O38: the rest check comes after the guard's (`Jobs.checks_resting`). -/
theorem restTimerBarsAndFreesPump : Obligations.RestTimerBarsAndFreesPump := by
  refine ⟨fun i s hs => ⟨fun hnone => ?_, fun hrest => ?_⟩, fun e j i o hk hrest hmanual hhold hlatch hband => ?_⟩
  · rw [exec_ready hs (by simp) (by simp)]
    exact congrArg (fun t : State => Host.Outcome.next t.creditWatch)
      (State.work_idle (f := fun _ j => j.restExpiry i) hs.2 (if_neg (by rw [hnone]; decide)))
  · rw [exec_ready hs (by simp) (by simp)]
    exact congrArg (fun t : State => Host.Outcome.next t.creditWatch)
      (State.work_congr (f := fun _ j => j.restExpiry i)
        (g := fun _ j => (j.updateAct i (fun a => { a with rest := none })).tell [.fillEval, .pass])
        (if_pos (Option.isSome_iff_ne_none.mpr hrest)))
  · have hchecks := Jobs.checks_resting hk hrest hlatch hband
    refine ⟨?_, ?_⟩
    · unfold Jobs.take
      rw [if_neg (by rw [hmanual]; decide), if_neg (by rcases hhold with h | h <;> simp [h]), hchecks]
    · unfold Jobs.operatorChecks
      rw [if_neg (by rw [hmanual]; decide)]
      show (match j.checks e i (.switch true) with
        | some r => some r
        | none => if OperatorItem.fits (e.set.act i).kind (.switch 1) then none else some .badAction) = _
      rw [hchecks]
end

section
/-!
PROOFS. The second (spec/05 R82) and the run time of the pumps (spec/04 R63).
The proofs are elaborated one after the other, which keeps the whole text inside the sandbox's memory.
-/

set_option Elab.async false

namespace Sys2Proof.Machine

variable {e : Env} {i k : Nat} {a : ActRuntime} {set : Settings} {j : Jobs} {p : Part} {s : State}

/-! ## Run time (R63) -/

/-- R63: the record of actuator `i` after a second: the run time of an in-use pump that is reported ON. -/
def ActRuntime.second (set : Settings) (i : Nat) (a : ActRuntime) : ActRuntime :=
  if set.actInUse i && (set.act i).kind == .pump && a.reported.code == .on then
    if a.runSeconds ≥ 59 then { a with runSeconds := 0, runMinutes := a.runMinutes + 1#32 }
    else { a with runSeconds := a.runSeconds + 1 }
  else a

theorem ActRuntime.second_eq (set : Settings) (i : Nat) (a : ActRuntime) :
    let runs := set.actInUse i = true ∧ (set.act i).kind = .pump ∧ a.reported.code = .on
    a.second set i = { a with
      runSeconds := if runs then (if a.runSeconds < 59 then a.runSeconds + 1 else 0) else a.runSeconds,
      runMinutes := if runs ∧ 59 ≤ a.runSeconds then a.runMinutes + 1#32 else a.runMinutes } := by
  intro runs
  have hruns : (set.actInUse i && (set.act i).kind == .pump && a.reported.code == .on) = true ↔ runs := by
    simp [runs, and_assoc]
  unfold ActRuntime.second
  by_cases hr : runs
  · rw [if_pos (hruns.mpr hr)]
    by_cases hlast : 59 ≤ a.runSeconds
    · rw [if_pos hlast, if_pos hr, if_neg (Nat.not_lt.mpr hlast), if_pos ⟨hr, hlast⟩]
    · rw [if_neg hlast, if_pos hr, if_pos (Nat.lt_of_not_le hlast), if_neg fun h => hlast h.2]
  · rw [if_neg (mt hruns.mp hr), if_neg hr, if_neg fun h => hr h.1]

/-- R63: one second of one actuator. -/
def Jobs.secondAt (set : Settings) (j : Jobs) (i : Nat) : Jobs :=
  if set.actInUse i && (set.act i).kind == .pump && (j.act i).reported.code == .on then
    j.updateAct i (fun a =>
      if a.runSeconds ≥ 59 then { a with runSeconds := 0, runMinutes := a.runMinutes + 1#32 }
      else { a with runSeconds := a.runSeconds + 1 })
  else j

theorem Jobs.runSecond_eq (e : Env) (j : Jobs) :
    j.runSecond e = (List.range Config.actuatorCount).foldl (Jobs.secondAt e.set) j := rfl

theorem Jobs.secondAt_length (set : Settings) (j : Jobs) (i : Nat) : (j.secondAt set i).acts.length = j.acts.length := by
  unfold Jobs.secondAt
  split
  · exact updateAt_length ..
  · rfl

theorem Jobs.secondAt_flight (set : Settings) (j : Jobs) (i : Nat) : (j.secondAt set i).flight = j.flight := by
  unfold Jobs.secondAt
  split <;> rfl

theorem Jobs.act_secondAt_ne (set : Settings) (j : Jobs) (h : k ≠ i) : (j.secondAt set i).act k = j.act k := by
  unfold Jobs.secondAt
  split
  · exact Jobs.act_updateAct_ne _ h
  · rfl

theorem Jobs.act_secondAt_self (set : Settings) (h : i < j.acts.length) :
    (j.secondAt set i).act i = (j.act i).second set i := by
  unfold Jobs.secondAt ActRuntime.second
  split
  · exact Jobs.act_updateAct_self _ h
  · rfl

theorem Jobs.foldl_secondAt_flight (set : Settings) (l : List Nat) (j : Jobs) :
    (l.foldl (Jobs.secondAt set) j).flight = j.flight := by
  induction l generalizing j with
  | nil => rfl
  | cons i l ih => exact (ih _).trans (Jobs.secondAt_flight ..)

theorem Jobs.foldl_secondAt_other (set : Settings) (l : List Nat) (j : Jobs) (hk : k ∉ l) :
    (l.foldl (Jobs.secondAt set) j).act k = j.act k := by
  induction l generalizing j with
  | nil => rfl
  | cons i l ih =>
    rw [List.mem_cons, not_or] at hk
    exact (ih _ hk.2).trans (Jobs.act_secondAt_ne set j hk.1)

/-- Each actuator of the list counts once. -/
theorem Jobs.foldl_secondAt_mem (set : Settings) {l : List Nat} (hnodup : l.Nodup) (hk : k ∈ l) (hlen : k < j.acts.length) :
    (l.foldl (Jobs.secondAt set) j).act k = (j.act k).second set k := by
  induction l generalizing j with
  | nil => cases hk
  | cons i l ih =>
    obtain ⟨hi, hnodup⟩ := List.nodup_cons.mp hnodup
    rcases List.mem_cons.mp hk with rfl | hk
    · exact (Jobs.foldl_secondAt_other set l _ hi).trans (Jobs.act_secondAt_self set hlen)
    · have hne : k ≠ i := fun h => hi (h ▸ hk)
      rw [List.foldl_cons, ih hnodup hk (by rw [Jobs.secondAt_length]; exact hlen), Jobs.act_secondAt_ne set j hne]

theorem Jobs.act_runSecond (e : Env) (hi : i < 12) (hlen : i < j.acts.length) :
    (j.runSecond e).act i = (j.act i).second e.set i := by
  rw [Jobs.runSecond_eq]
  exact Jobs.foldl_secondAt_mem e.set List.nodup_range (List.mem_range.mpr hi) hlen

theorem Jobs.runSecond_flight (e : Env) (j : Jobs) : (j.runSecond e).flight = j.flight := Jobs.foldl_secondAt_flight ..

theorem ActRuntime.view_runMinutes {a b : ActRuntime} (h : a.view = b.view) : a.runMinutes = b.runMinutes :=
  congrArg (fun v => v.2.2.2.1) h

theorem ActRuntime.view_runSeconds {a b : ActRuntime} (h : a.view = b.view) : a.runSeconds = b.runSeconds :=
  congrArg (fun v => v.2.2.2.2.1) h

/-! ## The second (R82) -/

theorem Jobs.hull_tariffChange (e e' : Env) (j : Jobs) : (j.tariffChange e e').hull = j.hull := by
  unfold Jobs.tariffChange
  split <;> rfl

/-- R82: what a second writes that only a command writes, is the run time. -/
theorem hull_tick (p : Part) : ∃ e, e.set = p.1.set ∧ (tick p).2.hull = (p.2.runSecond e).hull := by
  refine ⟨{ p.1 with now := p.1.now + 1, clock := { p.1.clock with tow := p.1.clock.tow.next.1 } }, rfl, ?_⟩
  unfold tick
  dsimp only
  split
  · exact Jobs.hull_tariffChange ..
  · rfl

theorem tick_now (p : Part) : (tick p).1.now = p.1.now + 1 ∧ (tick p).1.set = p.1.set ∧ (tick p).1.heads = p.1.heads
    ∧ (tick p).1.clock.state = p.1.clock.state ∧ (tick p).1.clock.stale = p.1.clock.stale := by
  unfold tick
  dsimp only
  split <;> exact ⟨rfl, rfl, rfl, rfl, rfl⟩

/-- R82: within the minute the second alone moves. -/
theorem tick_within (h : p.1.clock.tow.second < 59) :
    (tick p).1.clock.tow = ⟨p.1.clock.tow.minute, p.1.clock.tow.second + 1⟩
      ∧ (tick p).1.clock.tariff = p.1.clock.tariff := by
  unfold tick TimeOfWeek.next
  rw [if_pos h]
  exact ⟨rfl, rfl⟩

/-- R82, R86: at the minute boundary the minute follows, and the Tariff State is derived. -/
theorem tick_boundary (h : 59 ≤ p.1.clock.tow.second) :
    (tick p).1.clock.tow = ⟨if p.1.clock.tow.minute < 10079 then p.1.clock.tow.minute + 1 else 0, 0⟩
      ∧ (tick p).1.clock.tariff = (tick p).1.clock.derived p.1.set := by
  have hminute : (p.1.clock.tow.minute + 1 < Config.weekMinutes) = (p.1.clock.tow.minute < 10079) :=
    propext (Nat.succ_lt_succ_iff (a := p.1.clock.tow.minute) (b := 10079))
  unfold tick TimeOfWeek.next
  rw [if_neg (Nat.not_lt.mpr h)]
  simp only [hminute]
  exact ⟨rfl, rfl⟩

end Sys2Proof.Machine

open Sys2Proof Sys2Proof.Machine

/-- Settles O41: a second is `tick`, and its run time is all that it writes of the actuators (`hull_tick`). -/
theorem secondTickMovesTime : Obligations.SecondTickMovesTime := by
  refine ⟨fun s hp hshape => ?_, fun s hs hwithin => ?_⟩
  · have hsecond : exec .secondTick s = .next (s.settled.change tick).creditWatch := exec_powered hp (by simp) (by simp)
    have hboundary : 59 ≤ s.env.clock.tow.second →
        exec .minuteBoundary s = .next (s.settled.change tick).creditWatch := fun hlast => by
      have hminute : minuteTick s.settled.part = tick s.settled.part := if_pos hlast
      have hsame : s.settled.change minuteTick = s.settled.change tick := by
        unfold State.change Part.change
        rw [hminute]
      rw [exec_powered hp (by simp) (by simp)]
      show Host.Outcome.next (s.settled.change minuteTick).creditWatch = _
      rw [hsame]
    obtain ⟨hnow, hset, hheads, hstate, hstale⟩ := tick_now s.settled.part
    have hwithin := tick_within (p := s.settled.part)
    have hminute := tick_boundary (p := s.settled.part)
    obtain ⟨e, he, htick⟩ := hull_tick s.settled.part
    have henv : (s.settled.change tick).env = (tick s.settled.part).1 := rfl
    have hloop : (s.settled.change tick).loop = s.loop := rfl
    have hhull : (s.settled.change tick).jobs.hull = (s.settled.jobs.runSecond e).hull := (State.hull_change ..).trans htick
    have hlen : s.settled.jobs.acts.length = 12 := (Jobs.hull_acts_length s.settled_hull).trans hshape.acts
    have hbefore := Jobs.hull_act s.settled_hull
    have hflight := (Jobs.runSecond_flight e s.settled.jobs).trans (congrArg Hull.flight s.settled_hull)
    generalize s.settled.change tick = t at hsecond hboundary henv hloop hhull
    generalize s.settled.jobs = j at hhull hlen hbefore hflight
    rw [← henv] at hnow hset hheads hstate hstale hwithin hminute
    refine ⟨_, hsecond, hboundary, hnow, hset, hheads, hstate, hstale, ?_, (congrArg Hull.flight hhull).trans hflight,
      hwithin, hminute, fun i hi => ?_⟩
    · rw [State.creditWatch_loop, hloop]
    · have hafter := Jobs.hull_act hhull i
      rw [Jobs.act_runSecond e hi (hlen ▸ hi), ActRuntime.second_eq, he] at hafter
      have hreported := ActRuntime.view_reported (hbefore i)
      rw [hreported, ActRuntime.view_runMinutes (hbefore i), ActRuntime.view_runSeconds (hbefore i)] at hafter
      rw [State.creditWatch_jobs]
      have hseconds' := ActRuntime.view_runSeconds hafter
      have hminutes' := ActRuntime.view_runMinutes hafter
      have hreported' := ActRuntime.view_reported hafter
      exact ⟨hseconds', hminutes', hreported', (ActRuntime.view_resp hafter).trans (ActRuntime.view_resp (hbefore i) :),
        (ActRuntime.view_fault hafter).trans (ActRuntime.view_fault (hbefore i) :),
        (ActRuntime.view_settled hafter).trans (ActRuntime.view_settled (hbefore i) :)⟩
  · have hidle : minuteTick s.part = s.part := if_neg (Nat.not_le.mpr hwithin)
    have hsame : s.change minuteTick = s := State.change_idle hs.2 hidle
    rw [exec_ready hs (by simp) (by simp)]
    show Host.Outcome.next (s.change minuteTick).creditWatch = _
    rw [hsame]
end

section
/-!
PROOFS. Management requests (spec/11 R172, R173): what the part is when one is carried out, and the two that act on a condition and on
a fault (spec/09 R154, spec/04 R64).
The proofs are elaborated one after the other, which keeps the whole text inside the sandbox's memory.
-/

set_option Elab.async false

namespace Sys2Proof.Machine

variable {e e' : Env} {i : Nat} {j j' : Jobs} {p : Port} {r : Request} {s : State} {bs : List Byte}

/-! ## Changes of the head records in which nothing that is observed moves -/

theorem Jobs.DiscordSettled.set (h : e'.set = e.set) (hs : j.DiscordSettled e) : j.DiscordSettled e' := ⟨hs.1, h ▸ hs.2⟩

theorem State.settled_withPart {q : Part} (hs : s.Settled) (hset : q.1.set = s.env.set) (h : s.jobs.Still q.1 q.2)
    (hw : q.2.work = s.jobs.work) (hb : q.2.fill = s.jobs.fill) : (s.withPart q).Settled :=
  ⟨hw.trans hs.1, (congrArg FillPlan.startBar hb).trans hs.2.1, h.discordSettled (hs.2.2.set hset)⟩

theorem State.change_still {f : Part → Part} (hs : s.Settled) (hset : (f s.part).1.set = s.env.set)
    (h : s.jobs.Still (f s.part).1 (f s.part).2) (hw : (f s.part).2.work = s.jobs.work) (hb : (f s.part).2.fill = s.jobs.fill) :
    s.change f = s.withPart (f s.part) := by
  obtain ⟨hwork, hbar, hdiscord⟩ := hs
  show s.withPart ((f s.part).1, (observe s.env s.jobs (f s.part).1 (f s.part).2).settle (f s.part).1) = _
  rw [h.observe (hdiscord.set hset) hset.symm, Jobs.settle_idle _ (hw.trans hwork) (hb ▸ hbar)]

/-! ## A request that arrives (R2, R32, R172) -/

/-- R32: hearing a silent head touches the Condition unit alone. -/
theorem heard_tele (bs : List Byte) (q : Part) : ∃ t, (heard bs q).2 = { q.2 with tele := t }
    ∧ t.flags .actuatorDiscord = q.2.tele.flags .actuatorDiscord := by
  unfold heard
  dsimp only
  split
  · dsimp only
    split
    · unfold Jobs.leftStale Jobs.headStaleTest Jobs.keep
      split
      · split
        · exact ⟨_, rfl, Tele.flags_raise_ne _ (by decide) _⟩
        · exact ⟨_, rfl, Tele.flags_clear_ne _ (by decide) _⟩
      · exact ⟨_, rfl, rfl⟩
    · exact ⟨_, rfl, rfl⟩
  · exact ⟨_, rfl, rfl⟩

theorem State.change_heard (hs : s.Settled) (bs : List Byte) : (s.change (heard bs)).Settled := by
  have hset := (heard_frame bs s.part).set
  obtain ⟨t, ht, hflags⟩ := heard_tele bs s.part
  have hstill : s.jobs.Still (heard bs s.part).1 (heard bs s.part).2 :=
    ht ▸ Jobs.still_tele _ s.jobs t _ _ hflags
  have hw : (heard bs s.part).2.work = s.jobs.work := by rw [ht]; rfl
  have hb : (heard bs s.part).2.fill = s.jobs.fill := by rw [ht]; rfl
  rw [State.change_still hs hset hstill hw hb]
  exact State.settled_withPart hs hset hstill hw hb

theorem State.work_clear (hs : s.Settled) {k : CondKind} (hk : CondKind.actuatorDiscord ≠ k) :
    (s.work (fun e j => j.clear e k)).Settled := by
  have hstill : s.jobs.Still s.env (s.jobs.clear s.env k) := Jobs.still_tele s.env s.jobs _ _ _ (Tele.flags_clear_ne _ hk _)
  rw [State.work_still (f := fun e j => j.clear e k) hs hstill hs.1 hs.2.1]
  exact State.settled_withPart (q := (s.env, s.jobs.clear s.env k)) hs rfl hstill rfl rfl

/-- The counting and hearing of a cell leave a settled part settled. -/
theorem State.received_settled (hs : s.Settled) (p : Port) (bs : List Byte) : (s.received p bs).Settled := by
  cases p with
  | line => exact hs
  | field =>
    refine State.change_heard ?_ bs
    unfold State.goodArrival
    refine State.work_clear ?_ (by decide)
    exact hs

theorem State.settled_ready (hs : s.Settled) : s.settled = s := by
  unfold State.settled
  rw [Jobs.settle_idle _ hs.1 hs.2.1]
  rfl

/-- Of what a command alone writes, a cell that is counted and heard writes counters. -/
theorem State.received_hull (p : Port) (bs : List Byte) (s : State) :
    ∃ c, (s.settled.received p bs).jobs.hull = ({ s.settled.jobs with counters := c } : Jobs).hull := by
  cases p with
  | line => exact ⟨_, rfl⟩
  | field => exact ⟨_, Machine.received_hull bs s⟩

theorem State.received_act (p : Port) (bs : List Byte) (s : State) (k : Nat) :
    ((s.settled.received p bs).jobs.act k).view = (s.jobs.act k).view := by
  obtain ⟨c, hc⟩ := s.received_hull p bs
  exact (Jobs.hull_act hc k).trans (Jobs.hull_act s.settled_hull k)

theorem State.received_flight (p : Port) (bs : List Byte) (s : State) :
    (s.settled.received p bs).jobs.flight = s.jobs.flight := by
  obtain ⟨c, hc⟩ := s.received_hull p bs
  exact (congrArg Hull.flight hc).trans (congrArg Hull.flight s.settled_hull)

theorem State.received_length (p : Port) (bs : List Byte) (s : State) :
    (s.settled.received p bs).jobs.acts.length = s.jobs.acts.length := by
  obtain ⟨c, hc⟩ := s.received_hull p bs
  exact (Jobs.hull_acts_length hc).trans (Jobs.hull_acts_length (show s.settled.jobs.hull = _ from s.settled_hull) :)

/-- The stored items, and whether a STORE stands in the way of a request. -/
theorem State.received_store (p : Port) (bs : List Byte) (s : State) :
    (s.settled.received p bs).jobs.store.image = s.jobs.store.image
      ∧ (s.settled.received p bs).jobs.store.complete = s.jobs.store.complete
      ∧ (s.settled.received p bs).jobs.store.storing = s.jobs.store.storing
      ∧ (s.settled.received p bs).jobs.store.waiting = s.jobs.store.waiting := by
  obtain ⟨c, hc⟩ := s.received_hull p bs
  have hs := s.settled_hull
  exact ⟨(congrArg Hull.image hc).trans (congrArg Hull.image hs), (congrArg Hull.complete hc).trans (congrArg Hull.complete hs),
    (congrArg Hull.storing hc).trans (congrArg Hull.storing hs), (congrArg Hull.waiting hc).trans (congrArg Hull.waiting hs)⟩

theorem State.received_frame (p : Port) (bs : List Byte) (s : State) : Env.Frame s.env (s.settled.received p bs).env := by
  cases p with
  | line => exact .refl _
  | field => exact (s.heard_received bs).frame

theorem State.received_loop (p : Port) (bs : List Byte) (s : State) :
    ∃ n, (s.settled.received p bs).loop = { s.loop with badRun := n } := by
  cases p with
  | line => exact ⟨s.loop.badRun, rfl⟩
  | field => exact ⟨0, rfl⟩

theorem Loop.offered_badRun (p : Port) (bs : List Byte) (l : Loop) (n : Nat) :
    ({ l with badRun := n } : Loop).offered p bs = l.offered p bs := by
  cases p with
  | line => exact Loop.offerL_badRun l n
  | field =>
    show (Loop.offerF bs { l with badRun := n }).1.fQueue = (Loop.offerF bs l).1.fQueue
    unfold Loop.offerF
    dsimp only
    split <;> rfl

theorem requestOf_port {set : Settings} (h : requestOf set p bs = some r) : r.port = p := by
  unfold requestOf at h
  split at h
  · cases h; rfl
  · cases h

/-- R172, R173: a request that passes every check is carried out once its cell has been counted and heard. -/
theorem exec_request {c : Instr} (hc : arrivalOf c = some (p, bs)) (hp : s.powered = true) (h : s.Requested p bs r)
    (hok : firstFailure (s.settled.received p bs).env (s.settled.received p bs).jobs r = none) :
    exec c s = .next ((s.settled.received p bs).carryOut r).creditWatch := by
  obtain ⟨hgood, hkind, hdest, hreq⟩ := h
  have hset := (s.received_frame p bs).set
  have hmanage : (s.settled.received p bs).manage p bs = (s.settled.received p bs).carryOut r := by
    unfold State.manage
    rw [hset, hreq]
    dsimp only
    rw [hok]
  have hne : ∀ k, k ≠ kindMgmtReq → cellKind bs ≠ k := fun k hk hb => hk (hb.symm.trans hkind)
  rw [exec_arrival hc, ← hmanage]
  unfold State.powerCommand State.arrive
  rw [if_pos hp, if_pos hgood]
  cases p with
  | field =>
    show Host.Outcome.next ((s.settled.received .field bs).classifyField bs).creditWatch = _
    unfold State.classifyField
    dsimp only
    rw [if_neg (hne kindSample (by decide)), if_neg (hne kindStatus (by decide)), if_pos (by rw [hset]; exact hdest),
      if_neg (hne kindAck (by decide)), if_pos hkind]
  | line =>
    show Host.Outcome.next ((s.settled.received .line bs).classifyLine bs).creditWatch = _
    unfold State.classifyLine
    dsimp only
    rw [if_neg fun h => hne kindCommand (by decide) h.1, if_neg fun h => hne kindCommand (by decide) h.1,
      if_neg fun h => hne kindFence (by decide) h.1, if_neg fun h => hne kindClock (by decide) h.1,
      if_neg fun h => hne kindClock (by decide) h.1, if_neg fun h => hne kindCredit (by decide) h.1,
      if_pos ⟨hkind, hdest⟩]

theorem carryOut_acknowledge {k : CondKind} (hk : r.kind = 4) (hi : condKinds[r.index]? = some k) :
    s.carryOut r = (s.work (fun e j => j.tele' (fun v t => t.acknowledge v k) e)).answer r .done [] := by
  unfold State.carryOut
  rw [hk]
  show (match condKinds[r.index]? with
    | some k => (s.work (fun e j => j.tele' (fun v t => t.acknowledge v k) e)).answer r .done []
    | none => s) = _
  rw [hi]

theorem carryOut_clearFault (hk : r.kind = 5) :
    s.carryOut r = (s.work (fun e j => j.clearFault e r.index)).answer r .done [] := by
  unfold State.carryOut
  rw [hk]
  rfl

/-- R14: the CREDIT_WAIT timer is no queue. -/
theorem State.creditWatch_queueOf (t : State) (p : Port) : t.creditWatch.loop.queueOf p = t.loop.queueOf p := by
  cases p with
  | line => exact t.creditWatch_lQueue
  | field => exact t.creditWatch_fQueue

/-- R172: an answer writes the queue of its port and the counter of displaced cells. -/
theorem State.answer_queue (hp : r.port = p) (res : Result) (d : List Byte) (t : State) :
    (t.answer r res d).loop.queueOf p = t.loop.offered p (r.answerCell t.env.set.general.ownAddress res d) := by
  subst hp
  unfold State.answer State.offer
  cases r.port <;> rfl

theorem Jobs.countDisplaced_eq (b : Bool) (j : Jobs) : ∃ c, j.countDisplaced b = { j with counters := c } := by
  cases b <;> exact ⟨_, rfl⟩

theorem State.answer_jobs (res : Result) (d : List Byte) (t : State) :
    ∃ c, (t.answer r res d).jobs = { t.jobs with counters := c } := Jobs.countDisplaced_eq ..

/-! ## Conditions and faults (R154, R64) -/

/-- R154: an acknowledgement leaves what is active. -/
theorem Tele.active_acknowledge (v : TeleEnv) (k k' : CondKind) (t : Tele) :
    ((t.acknowledge v k).flags k').1 = (t.flags k').1 := by
  unfold Tele.acknowledge
  split
  · rfl
  · dsimp only
    rw [(Tele.same_report v k _).flags k']
    have hself : ∀ f : Cond → Cond, (∀ c, (f c).active = c.active) → ((t.updateCond k f).flags k').1 = (t.flags k').1 :=
      fun f hf => updateAt_getD_view (fun c => c.active) f _ _ _ _ hf
    split
    · rw [Tele.flags_deriveAlert]
      exact hself _ fun _ => rfl
    · exact hself _ fun _ => rfl

/-- R154: an acknowledgement causes nothing else. -/
theorem State.work_acknowledge (hs : s.Settled) (k : CondKind) :
    s.work (fun e j => j.tele' (fun v t => t.acknowledge v k) e)
      = { s with jobs := { s.jobs with tele := s.jobs.tele.acknowledge (teleEnv s.env s.jobs) k } } :=
  State.work_still hs ⟨rfl, fun _ => rfl, rfl, Tele.active_acknowledge _ k _ _⟩ hs.1 hs.2.1

theorem condKinds_index {k : CondKind} (h : condKinds[i]? = some k) : i ≤ 21 := by
  have := (List.getElem?_eq_some_iff.mp h).1
  exact Nat.le_of_lt_succ this

theorem firstFailure_acknowledge (e : Env) (j : Jobs) (hk : r.kind = 4) (hi : r.index ≤ 21) : firstFailure e j r = none := by
  simp [firstFailure, hk, hi, within, localKind, idOk, indexOk, busyKind, isGuarded]

theorem firstFailure_clearFault (e : Env) (j : Jobs) (hk : r.kind = 5) (hi : r.index < 12) : firstFailure e j r = none := by
  simp [firstFailure, hk, Nat.le_of_lt_succ hi, within, localKind, idOk, indexOk, busyKind, isGuarded]

theorem Jobs.clearFault_none (h : (j.act i).fault = .none) : j.clearFault e i = j := by
  unfold Jobs.clearFault
  rw [h]
  simp

/-- R64: a CLEAR_FAULT writes the fault alone. -/
theorem Jobs.wrote_clearFault (hi : i < j.acts.length) (hu : e.set.actInUse i = true) :
    Jobs.Wrote i { j.act i with fault := .none } j.flight j (j.clearFault e i) := by
  by_cases hf : (j.act i).fault = .none
  · rw [Jobs.clearFault_none hf]
    have h := Jobs.Wrote.refl i j
    exact ⟨by rw [← hf], h.others, h.flight, h.length⟩
  · have hset := (Jobs.Wrote.refl i j).setFault .none hi
    unfold Jobs.clearFault
    rw [if_neg (by simp [hu, hf])]
    dsimp only
    cases (e.set.act i).kind with
    | valveDrain => exact hset
    | pump | valveInlet => exact hset.hull rfl
    | heater =>
      cases e.set.heaterZone i with
      | none => exact hset.hull rfl
      | some z => exact hset.hull rfl

end Sys2Proof.Machine

open Sys2Proof Sys2Proof.Machine

/-- Settles O58: the two requests pass every check and are carried out (`exec_request`); what a CLEAR_FAULT writes is
`Jobs.wrote_clearFault`. -/
theorem ackAndClearFaultAct : Obligations.AckAndClearFaultAct := by
  intro p bs r s hs hreq
  have hready := State.settled_ready hs.2
  have hsettled := State.received_settled hs.2 p bs
  have hset := (s.received_frame p bs).set
  refine ⟨fun k hk hkind => ?_, fun hk hi hnone => ?_, fun hk hi hshape hu => ?_⟩
  · rw [exec_request (c := .ackCondition p bs) rfl hs.1 hreq (firstFailure_acknowledge _ _ hk (condKinds_index hkind)), hready,
      carryOut_acknowledge hk hkind, State.work_acknowledge hsettled]
  · have hfault := ActRuntime.view_fault (s.received_act p bs r.index)
    rw [hready, hnone] at hfault
    rw [exec_request (c := .clearFault p bs) rfl hs.1 hreq (firstFailure_clearFault _ _ hk hi), hready, carryOut_clearFault hk,
      State.work_idle (f := fun e j => j.clearFault e r.index) hsettled (Jobs.clearFault_none hfault)]
  · have hexec := exec_request (c := .clearFault p bs) rfl hs.1 hreq (firstFailure_clearFault _ _ hk hi)
    rw [carryOut_clearFault hk] at hexec
    have hview := s.received_act p bs
    have hflight := State.received_flight p bs s
    have hlen := State.received_length p bs s
    obtain ⟨n, hloop⟩ := s.received_loop p bs
    generalize s.settled.received p bs = k at hexec hset hview hflight hlen hloop
    have hw := (Jobs.wrote_clearFault (e := k.env) (by rw [hlen, hshape.acts]; exact hi) (by rw [hset]; exact hu)).hull
      (State.hull_work (fun e j => j.clearFault e r.index) k)
    have henv := State.work_env (fun e j => j.clearFault e r.index) k
    have hkept := State.work_loop (fun e j => j.clearFault e r.index) k
    generalize k.work (fun e j => j.clearFault e r.index) = t at hexec hw henv hkept
    obtain ⟨c, hc⟩ := State.answer_jobs (r := r) .done [] t
    have hqueue := State.answer_queue (requestOf_port hreq.2.2.2) .done [] t
    have hfault := ActRuntime.view_fault hw.view
    have hreported := ActRuntime.view_reported hw.view
    have hcommand := ActRuntime.view_settled hw.view
    refine ⟨_, hexec, ?_⟩
    rw [State.creditWatch_jobs, hc]
    refine ⟨hfault, hreported.trans (ActRuntime.view_reported (hview _) :), hcommand.trans (ActRuntime.view_settled (hview _) :),
      fun m hm => (hw.others m hm).trans (hview m), hw.flight.trans hflight, (congrArg Env.set henv).trans hset, ?_⟩
    rw [State.creditWatch_queueOf, hqueue, henv, hkept, hset, hloop, Loop.offered_badRun]
end

section
/-!
PROOFS. The resets (spec/11 R177 to R179): what the reset's own evaluations leave, power-on, loss of power, and the restart of RESTART
and RECALL.
The proofs are elaborated one after the other, which keeps the whole text inside the sandbox's memory.
-/

set_option Elab.async false

namespace Sys2Proof.Machine

variable {e : Env} {i : Nat} {j : Jobs} {dry : Bool} {p : Port} {r : Request} {s : State} {bs : List Byte} {set : Settings}

/-! ## What follows once a reset is taken (R80, R171) -/

/-- The first evaluations are told, each a calm telling. -/
theorem Jobs.Moves.firstEvaluations (j : Jobs) : Jobs.Moves dry e j j.firstEvaluations :=
  ((Jobs.Moves.refl.post .guardEval).post .cap).tell [.frostZone 0, .frostZone 1, .frostZone 2, .frostZone 3]

/-- What is taken before the settling. -/
def Jobs.resetTold (e : Env) (j : Jobs) : Jobs := ((j.queryAll e).tele' (fun v t => t.allDue v) e).firstEvaluations

theorem Jobs.resetTaken_eq (e : Env) (j : Jobs) : j.resetTaken e = (j.resetTold e).settle e := rfl

theorem Jobs.moves_queryAll (dry : Bool) (e : Env) (j : Jobs) : Jobs.Moves dry e j (j.queryAll e) :=
  Jobs.Moves.refl.request ..

theorem Jobs.keeps_resetTold (dry : Bool) (e : Env) (j : Jobs) : Jobs.Keeps dry j (j.resetTold e) :=
  ((Jobs.moves_queryAll dry e j).keeps.trans (Jobs.keeps_tele' ..)).trans (Jobs.Moves.firstEvaluations (e := e) _).keeps

/-- The evaluations after a reset write nothing that a command alone writes. -/
theorem Jobs.hull_resetTaken (e : Env) (j : Jobs) : (j.resetTaken e).hull = j.hull := by
  rw [Jobs.resetTaken_eq, (Jobs.moves_settle ..).hull_eq]
  exact (Jobs.Moves.firstEvaluations (dry := false) (e := e) _).hull_eq.trans
    ((Jobs.hull_tele' ..).trans (Jobs.moves_queryAll false e j).hull_eq)

theorem Jobs.flags_resetTaken (e : Env) (j : Jobs) {k : CondKind} (hk : k.inside = false) :
    (j.resetTaken e).tele.flags k = j.tele.flags k := by
  rw [Jobs.resetTaken_eq, (Jobs.moves_settle ..).flags hk]
  exact ((Jobs.Moves.firstEvaluations (dry := false) (e := e) _).flags hk).trans
    (((Tele.same_allDue ..).flags k).trans ((Jobs.moves_queryAll false e j).flags hk))

/-- R107: a latched trip stays latched. -/
theorem Jobs.latch_resetTaken (e : Env) (h : j.guard.latch = true) : (j.resetTaken e).guard.latch = true :=
  (Jobs.moves_settle ..).keeps.latch ((Jobs.keeps_resetTold false e j).latch h)

/-- R107: and nothing trips a calm part. -/
theorem Jobs.calm_resetTaken (e : Env) (h : j.Calm) : (j.resetTaken e).Calm :=
  Jobs.Calm.settle ((Jobs.keeps_resetTold true e j).calm rfl h)

/-! ## Raises at a reset (R155, R178) -/

theorem Jobs.raiseWhen_eq (e : Env) (k : CondKind) (b : Bool) (j : Jobs) :
    ∃ t, j.raiseWhen e k b = { j with tele := t } ∧ t.conds.length = j.tele.conds.length
      ∧ ∀ k', k' ≠ k → t.flags k' = j.tele.flags k' := by
  cases b with
  | false => exact ⟨j.tele, rfl, rfl, fun _ _ => rfl⟩
  | true => exact ⟨_, rfl, congrArg Prod.fst (Tele.sizes_raise ..), fun k' hk' => Tele.flags_raise_ne _ hk' _⟩

/-! ## Power-on (R179) -/

/-- R155, R179: the conditions raised at power-on. -/
theorem State.powerUp_eq (s : State) :
    let store := s.jobs.store.survive
    let e := Env.atPowerOn store.loaded
    ∃ t : Tele, (t.flags .clockUnset).1 = true ∧ (store.valid = false → (t.flags .settingsLost).1 = true)
      ∧ s.powerUp = State.creditWatch
        { powered := true, pending := s.pending, loop := Loop.powerOn, env := e,
          jobs := ({ Jobs.atPowerOn e store s.jobs.choices with tele := t } : Jobs).resetTaken e } := by
  intro store e
  have hconds : (Jobs.atPowerOn e store s.jobs.choices).tele.conds.length = 22 := List.length_replicate
  have hunset := Jobs.raise_active e .clockUnset hconds
  have hraised : ((Jobs.atPowerOn e store s.jobs.choices).raise e .clockUnset).tele.conds.length = 22 :=
    (congrArg Prod.fst (Tele.sizes_raise ..)).trans hconds
  obtain ⟨t, ht, htconds, htflags⟩ := Jobs.raiseWhen_eq e .overflowTrip store.word
    ((Jobs.atPowerOn e store s.jobs.choices).raise e .clockUnset)
  obtain ⟨u, hu, -, huflags⟩ := Jobs.raiseWhen_eq e .settingsLost (!store.valid)
    { (Jobs.atPowerOn e store s.jobs.choices).raise e .clockUnset with tele := t }
  refine ⟨u, ?_, fun hvalid => ?_, ?_⟩
  · rw [huflags _ (by decide), htflags _ (by decide)]
    exact hunset
  · have hlost := Jobs.raise_active e .settingsLost (j := { (Jobs.atPowerOn e store s.jobs.choices).raise e .clockUnset with
      tele := t }) (htconds.trans hraised)
    rw [hvalid] at hu
    exact (congrArg (fun j => j.active .settingsLost) hu).symm.trans hlost
  · unfold State.powerUp
    dsimp only
    rw [ht, hu]
    rfl

/-- R116: with a clear latch word nothing can trip the tower. -/
theorem Jobs.calm_atPowerOn (e : Env) (store : Store) (choices : List Nat) (t : Tele) (h : store.word = false) :
    ({ Jobs.atPowerOn e store choices with tele := t } : Jobs).Calm where
  gaugeA := rfl
  gaugeB := rfl
  blind := rfl
  float := by
    show e.set.floatAtReset ≠ .wet
    unfold Settings.floatAtReset
    split <;> decide
  latch := h
  work := nofun

/-- R116: the latch word decides the latch. -/
theorem Jobs.latch_atPowerOn (e : Env) (store : Store) (choices : List Nat) (t : Tele) :
    (({ Jobs.atPowerOn e store choices with tele := t } : Jobs).resetTaken e).guard.latch = store.word := by
  cases h : store.word with
  | true => exact Jobs.latch_resetTaken e h
  | false => exact (Jobs.calm_resetTaken e (Jobs.calm_atPowerOn e store choices t h)).latch

/-- R179: what power-on loads and sets. -/
structure State.PoweredUp (s t : State) : Prop where
  inForce : t.env.set = s.jobs.store.loaded
  settingsLost : s.jobs.store.valid = false → t.jobs.active .settingsLost = true
  clockUnset : t.jobs.active .clockUnset = true
  latch : t.jobs.guard.latch = s.jobs.store.word
  word : t.jobs.store.word = s.jobs.store.word
  tow : t.env.clock.tow = ⟨0, 0⟩
  clock : t.env.clock.state = .unset
  loop : t.loop = { Loop.powerOn with creditWait := t.loop.creditWait }
  counters : ({ t.jobs.counters with refusals11 := 0#32 } : Counters) = Counters.zero
  flight : t.jobs.flight = []
  acts : ∀ i, (t.jobs.act i).view = ActRuntime.powerOn.view

theorem State.poweredUp_powerUp (s : State) : State.PoweredUp s s.powerUp := by
  obtain ⟨t, hunset, hlost, hup⟩ := s.powerUp_eq
  have hset : (Env.atPowerOn s.jobs.store.survive.loaded).set = s.jobs.store.loaded := rfl
  have htow : (Env.atPowerOn s.jobs.store.survive.loaded).clock.tow = ⟨0, 0⟩ := rfl
  have hstate : (Env.atPowerOn s.jobs.store.survive.loaded).clock.state = .unset := rfl
  rw [hup]
  generalize Env.atPowerOn s.jobs.store.survive.loaded = e at hset htow hstate
  have hlatch := Jobs.latch_atPowerOn e s.jobs.store.survive s.jobs.choices t
  have hact := Jobs.act_powerOn s.jobs.store.survive
  have hstart : ({ Jobs.atPowerOn e s.jobs.store.survive s.jobs.choices with tele := t } : Jobs).hull
      = (Jobs.powerOn s.jobs.store.survive).hull := rfl
  have htele : ({ Jobs.atPowerOn e s.jobs.store.survive s.jobs.choices with tele := t } : Jobs).tele = t := rfl
  generalize ({ Jobs.atPowerOn e s.jobs.store.survive s.jobs.choices with tele := t } : Jobs) = k at hlatch hstart htele
  have hhull := (Jobs.hull_resetTaken e k).trans hstart
  have hflags : ∀ c : CondKind, c.inside = false → ((k.resetTaken e).tele.flags c).1 = (t.flags c).1 := fun c hc => by
    rw [Jobs.flags_resetTaken e k hc, htele]
  generalize k.resetTaken e = j at hlatch hhull hflags
  exact ⟨hset, fun h => (hflags .settingsLost rfl).trans (hlost h), (hflags .clockUnset rfl).trans hunset, hlatch,
    congrArg Hull.word hhull, htow, hstate, State.creditWatch_loop _, congrArg Hull.counters hhull, congrArg Hull.flight hhull,
    fun i => (Jobs.hull_act hhull i).trans (congrArg ActRuntime.view (hact i))⟩

theorem Store.valid_false {x : Store} (h : x.complete = false ∨ x.image = none) : x.valid = false := by
  unfold Store.valid
  rcases h with h | h <;> simp [h]

/-- R179: the settings that a power-on loads. -/
theorem Store.loaded_image {x : Store} {image : Settings} (hc : x.complete = true) (hi : x.image = some image) :
    x.loaded = image := by
  unfold Store.loaded
  rw [hi]
  exact if_pos hc

theorem Store.loaded_factory {x : Store} (h : x.complete = false ∨ x.image = none) : x.loaded = .factory := by
  unfold Store.loaded
  split
  · next image hi =>
    rcases h with h | h
    · exact if_neg (by rw [h]; decide)
    · rw [hi] at h; cases h
  · rfl

/-! ## Restart (R178) -/

theorem Jobs.act_restarted (e : Env) (j : Jobs) (i : Nat) :
    (j.restarted e).act i = if i < 12 then e.set.actRestart i (j.act i) else .powerOn := by
  show ((List.range 12).map (fun i => e.set.actRestart i (j.act i))).getD i .powerOn = _
  rw [List.getD_eq_getElem?_getD, List.getElem?_map]
  by_cases hi : i < 12
  · rw [List.getElem?_range hi, if_pos hi]
    rfl
  · rw [List.getElem?_eq_none (by simpa using hi), if_neg hi]
    rfl

/-- R61: a record after a restart is that of power-on but for the run time of a pump in use. -/
theorem Settings.actRestart_fields (set : Settings) (i : Nat) (a : ActRuntime) :
    (set.actRestart i a).runMinutes = (if set.actInUse i = true ∧ (set.act i).kind = .pump then a.runMinutes else 0#32)
      ∧ (set.actRestart i a).reported = ⟨.unknown, 0, 0⟩ ∧ (set.actRestart i a).fault = .none
      ∧ (set.actRestart i a).settled = .unknown := by
  unfold Settings.actRestart
  by_cases h : set.actInUse i = true ∧ (set.act i).kind = .pump
  · rw [if_pos (by simpa using h), if_pos h]
    exact ⟨rfl, rfl, rfl, rfl⟩
  · rw [if_neg (by simpa using h), if_neg h]
    exact ⟨rfl, rfl, rfl, rfl⟩

theorem Jobs.tariffChange_eq (e e' : Env) (j : Jobs) :
    ∃ w c, j.tariffChange e e' = { j with work := w, choices := c } := by
  unfold Jobs.tariffChange
  split <;> exact ⟨_, _, rfl⟩

/-- R178: what a restart puts in force before it is taken. -/
theorem State.restart_eq (set : Settings) (s : State) :
    ∃ t w c, s.restart set = { s with
      loop := { Loop.powerOn with lTx := s.loop.lTx, fTx := s.loop.fTx }, env := s.env.restarted set,
      jobs := ({ s.jobs.restarted (s.env.restarted set) with tele := t, work := w, choices := c } : Jobs).resetTaken
        (s.env.restarted set) } := by
  unfold State.restart
  dsimp only
  generalize s.env.restarted set = e
  obtain ⟨t, ht, -, -⟩ := Jobs.raiseWhen_eq e .clockStale (e.clock.state == .drifting)
    ((s.jobs.restarted e).tele' (fun v t => (t.restarted v (e.clock.state == .unset)).repost v) e)
  obtain ⟨u, hu, -, -⟩ := Jobs.raiseWhen_eq e .settingsLost (!s.jobs.store.valid)
    { (s.jobs.restarted e).tele' (fun v t => (t.restarted v (e.clock.state == .unset)).repost v) e with tele := t }
  obtain ⟨w, c, hwork⟩ := Jobs.tariffChange_eq s.env e
    { (s.jobs.restarted e).tele' (fun v t => (t.restarted v (e.clock.state == .unset)).repost v) e with tele := u }
  exact ⟨u, w, c, by rw [ht, hu, hwork]; rfl⟩

/-- R178: what a RESTART or a RECALL keeps and puts in force, of a part that has heard the request's cell. -/
structure State.Restarted (set : Settings) (s t : State) : Prop where
  inForce : t.env.set = set
  tow : t.env.clock.tow = s.env.clock.tow
  clock : t.env.clock.state = s.env.clock.state
  loop : t.loop = { Loop.powerOn with lTx := s.loop.lTx, fTx := s.loop.fTx, creditWait := t.loop.creditWait }
  flight : t.jobs.flight = []
  latch : s.jobs.guard.latch = true → t.jobs.guard.latch = true
  runMinutes : ∀ i < 12, (t.jobs.act i).runMinutes =
    (if set.actInUse i = true ∧ (set.act i).kind = .pump then (s.jobs.act i).runMinutes else 0#32)
  acts : ∀ i, (t.jobs.act i).reported = ⟨.unknown, 0, 0⟩ ∧ (t.jobs.act i).fault = .none ∧ (t.jobs.act i).settled = .unknown

theorem State.restarted_restart (set : Settings) (s : State) : State.Restarted set s (s.restart set).creditWatch := by
  obtain ⟨t, w, c, heq⟩ := s.restart_eq set
  have hset : (s.env.restarted set).set = set := rfl
  have htow : (s.env.restarted set).clock.tow = s.env.clock.tow := rfl
  have hstate : (s.env.restarted set).clock.state = s.env.clock.state := rfl
  rw [heq]
  generalize s.env.restarted set = e at hset htow hstate
  have hhull := Jobs.hull_resetTaken e { s.jobs.restarted e with tele := t, work := w, choices := c }
  have hlatch : s.jobs.guard.latch = true →
      (({ s.jobs.restarted e with tele := t, work := w, choices := c } : Jobs).resetTaken e).guard.latch = true :=
    Jobs.latch_resetTaken (j := { s.jobs.restarted e with tele := t, work := w, choices := c }) e
  have hact : ∀ i, ({ s.jobs.restarted e with tele := t, work := w, choices := c } : Jobs).act i
      = if i < 12 then set.actRestart i (s.jobs.act i) else .powerOn := fun i => hset ▸ Jobs.act_restarted e s.jobs i
  have hflight : ({ s.jobs.restarted e with tele := t, work := w, choices := c } : Jobs).flight = [] := rfl
  generalize ({ s.jobs.restarted e with tele := t, work := w, choices := c } : Jobs) = k at hhull hlatch hact hflight
  generalize k.resetTaken e = j at hhull hlatch
  have hview := Jobs.hull_act hhull
  refine ⟨hset, htow, hstate, ?_, (congrArg Hull.flight hhull).trans hflight, hlatch, fun i hi => ?_, fun i => ?_⟩
  · rw [State.creditWatch_loop]
  · have hminutes := ActRuntime.view_runMinutes (hview i)
    rw [hact, if_pos hi, (Settings.actRestart_fields ..).1] at hminutes
    exact hminutes
  · have hreported := ActRuntime.view_reported (hview i)
    have hfault := ActRuntime.view_fault (hview i)
    have hsettled := ActRuntime.view_settled (hview i)
    obtain ⟨-, hr, hf, hc⟩ := Settings.actRestart_fields set i (s.jobs.act i)
    by_cases hi : i < 12
    · rw [hact, if_pos hi] at hreported hfault hsettled
      exact ⟨hreported.trans hr, hfault.trans hf, hsettled.trans hc⟩
    · rw [hact, if_neg hi] at hreported hfault hsettled
      exact ⟨hreported, hfault, hsettled⟩

/-- R107: neither an earlier command's tellings nor the hearing of a cell clear the latch. -/
theorem State.received_latch (p : Port) (bs : List Byte) (h : s.jobs.guard.latch = true) :
    (s.settled.received p bs).jobs.guard.latch = true := by
  have hsettled : s.settled.jobs.guard.latch = true := (Jobs.moves_settle ..).keeps.latch h
  cases p with
  | line => exact hsettled
  | field =>
    refine (Jobs.moves_complete ..).keeps.latch ?_
    obtain ⟨t, ht, -⟩ := heard_tele bs (s.settled.goodArrival .field).part
    rw [ht]
    exact (Jobs.moves_complete ..).keeps.latch hsettled

/-- The cell of the request moves nothing that a restart keeps. -/
theorem State.Restarted.of_received {t : State} (h : State.Restarted set (s.settled.received p bs) t) :
    State.Restarted set s t := by
  have hclock := (s.received_frame p bs).clock
  have hact := s.received_act p bs
  have hlatch := State.received_latch (s := s) p bs
  obtain ⟨n, hloop⟩ := s.received_loop p bs
  generalize s.settled.received p bs = k at h hclock hact hlatch hloop
  refine ⟨h.inForce, h.tow.trans (by rw [hclock]), h.clock.trans (by rw [hclock]), ?_, h.flight, fun hl => h.latch (hlatch hl),
    fun i hi => ?_, h.acts⟩
  · rw [h.loop, hloop]
  · rw [h.runMinutes i hi, ActRuntime.view_runMinutes (hact i)]

/-! ## RESTART and RECALL (R173, R178) -/

theorem firstFailure_restart (e : Env) (hk : r.kind = 8) (hs : j.store.storing = none) (hw : j.store.waiting = false) :
    firstFailure e j r = none := by
  simp [firstFailure, hk, within, localKind, idOk, indexOk, busyKind, isGuarded, Store.busy, hs, hw]

theorem firstFailure_recall (hk : r.kind = 7) (hs : j.store.storing = none) (hw : j.store.waiting = false)
    (hsrc : r.source = .local ∨ e.set.lock = false) : firstFailure e j r = none := by
  have hguard : (r.source == .line && e.set.lock) = false := by
    rcases hsrc with h | h <;> simp [h]
  simp [firstFailure, hk, within, localKind, idOk, indexOk, busyKind, isGuarded, Store.busy, hs, hw, hguard]

theorem carryOut_restart (hk : r.kind = 8) : s.carryOut r = s.restart s.env.set := by
  unfold State.carryOut
  rw [hk]
  rfl

theorem carryOut_recall (hk : r.kind = 7) : s.carryOut r = s.recall r := by
  unfold State.carryOut
  rw [hk]
  rfl

theorem State.recall_complete {image : Settings} (hc : s.jobs.store.complete = true) (hi : s.jobs.store.image = some image) :
    s.recall r = s.restart image := by
  unfold State.recall Store.valid
  rw [hc, hi]
  rfl

theorem State.recall_incomplete (h : s.jobs.store.complete = false ∨ s.jobs.store.image = none) :
    s.recall r = s.answer r .notSafe [] := by
  unfold State.recall
  rw [Store.valid_false h]

end Sys2Proof.Machine

open Sys2Proof Sys2Proof.Machine

/-- Settles O60: power-on is `State.powerUp_eq`, a restart `State.restarted_restart`; the evaluations that follow either write nothing
that a command alone writes (`Jobs.hull_resetTaken`). -/
theorem resetsKeepWhatTheyShould : Obligations.ResetsKeepWhatTheyShould := by
  refine ⟨fun s => ⟨_, exec_eq .powerLoss s, rfl, rfl, rfl, rfl, rfl, rfl, rfl, rfl⟩, fun c s hp hon hoff => ?_, fun s => ?_,
    fun p bs r s hp hreq hstoring hwaiting => ⟨fun hk => ?_, fun hk hsrc => ⟨fun image hc hi => ?_, fun hs hinvalid => ?_⟩⟩⟩
  · rw [exec_eq, if_neg hon, if_neg hoff]
    unfold State.powerCommand
    rw [if_neg (by rw [hp]; decide)]
  · have hexec : exec .powerOn s = .next s.powerUp := exec_eq .powerOn s
    have h := s.poweredUp_powerUp
    exact ⟨_, hexec, rfl, rfl, fun image hc hi => h.inForce.trans (Store.loaded_image hc hi),
      fun hinvalid => ⟨h.inForce.trans (Store.loaded_factory hinvalid), h.settingsLost (Store.valid_false hinvalid)⟩,
      h.latch, h.word, h.tow, h.clock, h.clockUnset, h.loop, h.counters, h.flight, h.acts⟩
  · have hexec := exec_request (c := .restart p bs) rfl hp hreq (firstFailure_restart _ hk
      ((s.received_store p bs).2.2.1.trans hstoring) ((s.received_store p bs).2.2.2.trans hwaiting))
    rw [carryOut_restart hk, (s.received_frame p bs).set] at hexec
    have h := (State.restarted_restart s.env.set (s.settled.received p bs)).of_received
    exact ⟨_, hexec, h.inForce, h.tow, h.clock, h.loop, h.flight, h.latch, h.runMinutes, h.acts⟩
  · obtain ⟨himage, hcomplete, hst, hwt⟩ := s.received_store p bs
    have hset := (s.received_frame p bs).set
    have hexec := exec_request (c := .recall p bs) rfl hp hreq (firstFailure_recall hk (hst.trans hstoring) (hwt.trans hwaiting)
      (hset.symm ▸ hsrc))
    rw [carryOut_recall hk, State.recall_complete (hcomplete.trans hc) (himage.trans hi)] at hexec
    have h := (State.restarted_restart image (s.settled.received p bs)).of_received
    exact ⟨_, hexec, h.inForce, h.tow, h.clock, h.loop, h.flight, h.latch, h.runMinutes, h.acts⟩
  · obtain ⟨himage, hcomplete, hst, hwt⟩ := s.received_store p bs
    have hset := (s.received_frame p bs).set
    rw [exec_request (c := .recall p bs) rfl hp hreq (firstFailure_recall hk (hst.trans hstoring) (hwt.trans hwaiting)
      (hset.symm ▸ hsrc)), carryOut_recall hk, State.recall_incomplete (by rw [himage, hcomplete]; exact hinvalid),
      State.settled_ready hs.2]
end

section
/-!
PROOFS. The Tariff clock: CLOCK cells (spec/05 R83, R84), the expiry of the clock-stale timer (R83) and the derivation of the
Tariff State (R85, R86).
The proofs are elaborated one after the other, which keeps the whole text inside the sandbox's memory.
-/

set_option Elab.async false

namespace Sys2Proof.Machine

variable {p : Part} {s : State} {bs : List Byte} {x : Slot} {t : TimeOfWeek}

/-! ## TIME items (R84) -/

theorem timeOfItem_inRange (hm : x.field1 * 256 + x.field2 ≤ 10079) (hs : x.field3 ≤ 59) :
    timeOfItem x = some ⟨x.field1 * 256 + x.field2, x.field3⟩ :=
  if_pos ⟨Nat.lt_succ_of_le hm, Nat.lt_succ_of_le hs⟩

theorem timeOfItem_outOfRange (h : 10079 < x.field1 * 256 + x.field2 ∨ 59 < x.field3) : timeOfItem x = none :=
  if_neg fun ⟨hm, hs⟩ => h.elim (Nat.not_lt.mpr (Nat.le_of_lt_succ hm)) (Nat.not_lt.mpr (Nat.le_of_lt_succ hs))

/-- R84: the jump counter. -/
theorem Jobs.countJump_counts (c : Clock) (t : TimeOfWeek) (j : Jobs) :
    (j.countJump c t).counters.clockJumps13 = if c.state ≠ .unset ∧ 120 < jump c.tow t then
      j.counters.clockJumps13 + 1#32 else j.counters.clockJumps13 := by
  have hcounted : (c.state != .unset && decide (120 < jump c.tow t)) = true ↔ c.state ≠ .unset ∧ 120 < jump c.tow t := by
    simp
  unfold Jobs.countJump
  by_cases h : c.state ≠ .unset ∧ 120 < jump c.tow t
  · rw [if_pos (hcounted.mpr h), if_pos h]
    rfl
  · rw [if_neg (mt hcounted.mp h), if_neg h]

/-- A jump counts, and moves nothing else. -/
theorem Jobs.countJump_eq (c : Clock) (t : TimeOfWeek) (j : Jobs) : ∃ n, j.countJump c t = { j with counters := n } := by
  unfold Jobs.countJump
  split
  · exact ⟨_, rfl⟩
  · exact ⟨_, rfl⟩

@[simp] theorem Jobs.tariffChange_active (a c : Env) (j : Jobs) (k : CondKind) :
    (j.tariffChange a c).active k = j.active k := by
  unfold Jobs.tariffChange
  split <;> rfl

/-- Of what a command alone writes, a TIME item moves the jump counter. -/
theorem hull_clockItem (t : TimeOfWeek) (p : Part) : (clockItem t p).2.hull = (p.2.countJump p.1.clock t).hull :=
  Jobs.hull_tariffChange ..

/-- R83: once the clock is set, neither CLOCK_UNSET nor CLOCK_STALE stands. -/
theorem clockItem_active (t : TimeOfWeek) (p : Part) :
    (clockItem t p).2.active .clockUnset = false ∧ (clockItem t p).2.active .clockStale = false := by
  have htold : ∀ k, (clockItem t p).2.active k
      = ((p.2.countJump p.1.clock t).clockTaken (p.1.setTime t)).active k := fun k => Jobs.tariffChange_active _ _ _ k
  rw [htold, htold]
  refine ⟨?_, Jobs.clear_active _ (by decide) _⟩
  exact (congrArg Prod.fst (Tele.flags_clear_ne _ (by decide) _)).trans (Jobs.clear_active _ (by decide) _)

/-- What a taken TIME item, with all that it causes, leaves of the part: the clock is set, neither of its conditions stands, and of
what a command alone writes the jump counter has moved (R83, R84). -/
structure State.ClockTaken (t : TimeOfWeek) (s u : State) : Prop where
  env : u.env = s.env.setTime t
  loop : u.loop = s.loop
  clockUnset : u.jobs.active .clockUnset = false
  clockStale : u.jobs.active .clockStale = false
  jumps : u.jobs.counters.clockJumps13 = if s.env.clock.state ≠ .unset ∧ 120 < jump s.env.clock.tow t then
    s.jobs.counters.clockJumps13 + 1#32 else s.jobs.counters.clockJumps13
  flight : u.jobs.flight = s.jobs.flight
  view : ∀ i, (u.jobs.act i).view = (s.jobs.act i).view

theorem State.clockTaken_change (t : TimeOfWeek) (s : State) : State.ClockTaken t s (s.change (clockItem t)) := by
  have hhull : (s.change (clockItem t)).jobs.hull = (s.jobs.countJump s.env.clock t).hull :=
    (State.hull_change ..).trans (hull_clockItem ..)
  have hactive := clockItem_active t s.part
  have hjump := s.jobs.countJump_counts s.env.clock t
  obtain ⟨n, hcount⟩ := s.jobs.countJump_eq s.env.clock t
  rw [hcount] at hhull hjump
  exact ⟨rfl, rfl, (State.active_change _ rfl _).trans hactive.1, (State.active_change _ rfl _).trans hactive.2,
    (congrArg (fun h : Hull => h.counters.clockJumps13) hhull).trans hjump, congrArg Hull.flight hhull,
    fun i => (Jobs.hull_act hhull i :)⟩

/-! ## CLOCK cells (R6, R84) -/

/-- R6: a CLOCK cell to the own address or 0 is taken, and a copy of one to 0 goes on downstream. -/
theorem classifyLine_clock (hk : cellKind bs = kindClock)
    (hd : cellDest bs = s.env.set.general.ownAddress ∨ cellDest bs = 0) :
    s.classifyLine bs = if cellDest bs = 0 then (s.takeClock bs).offer .field bs else s.takeClock bs := by
  unfold State.classifyLine
  simp only [hk, kindClock, kindCommand, kindFence, Nat.reduceEqDiff, false_and, if_false, true_and]
  by_cases hbroadcast : cellDest bs = 0
  · rw [if_pos hbroadcast, if_pos hbroadcast]
  · rw [if_neg hbroadcast, if_neg hbroadcast, if_pos (hd.resolve_right hbroadcast)]

theorem takeClock_invalid (h : (slotsWith 0x40 bs).head?.bind timeOfItem = none) :
    s.takeClock bs = s.tally (Jobs.countBad .line) := by
  unfold State.takeClock
  rw [h]

theorem takeClock_valid (h : (slotsWith 0x40 bs).head?.bind timeOfItem = some t) :
    s.takeClock bs = s.change (clockItem t) := by
  unfold State.takeClock
  rw [h]
  rfl

/-- R84: the copy that goes on downstream moves the F-port's queue and the counter of lost cells. -/
theorem State.copied_frame (copied : Prop) [Decidable copied] (bs : List Byte) (s : State) :
    (if copied then s.offer .field bs else s).env = s.env
    ∧ (if copied then s.offer .field bs else s).loop.fQueue = (if copied then s.loop.offered .field bs else s.loop.fQueue)
    ∧ (if copied then s.offer .field bs else s).loop.lQueue = s.loop.lQueue
    ∧ ∃ d, (if copied then s.offer .field bs else s).jobs
        = { s.jobs with counters := { s.jobs.counters with displaced7 := d } } := by
  by_cases h : copied
  · simp only [if_pos h, State.offer_field]
    refine ⟨trivial, trivial, ?_, ?_⟩
    · unfold Loop.offerF
      split <;> rfl
    · cases (s.loop.offerF bs).2 with
      | false => exact ⟨s.jobs.counters.displaced7, rfl⟩
      | true => exact ⟨s.jobs.counters.displaced7 + 1#32, rfl⟩
  · simp only [if_neg h]
    exact ⟨trivial, trivial, trivial, s.jobs.counters.displaced7, rfl⟩

/-! ## The clock-stale timer (R83) -/

/-- Log 3: without a running timer there is no expiry. -/
theorem clockStaleExpiry_stopped (h : p.1.clock.stale = none) : clockStaleExpiry p = p := by
  unfold clockStaleExpiry
  rw [h]
  rfl

/-- R83: the expiry of the running timer. -/
theorem clockStaleExpiry_running (h : p.1.clock.stale ≠ none) :
    clockStaleExpiry p =
      let e := ({ p.1 with clock := { p.1.clock with state := .drifting, stale := none } } : Env).derive
      (e, (p.2.raise e .clockStale).tariffChange p.1 e) :=
  if_pos (Option.isSome_iff_ne_none.mpr h)

/-- The expiry writes nothing of what the other commands write. -/
theorem hull_clockStaleExpiry (p : Part) : (clockStaleExpiry p).2.hull = p.2.hull := by
  unfold clockStaleExpiry
  split
  · exact (Jobs.hull_tariffChange ..).trans rfl
  · rfl

theorem clockStaleExpiry_active (h : p.1.clock.stale ≠ none) (hc : p.2.tele.conds.length = 22) :
    (clockStaleExpiry p).2.active .clockStale = true := by
  rw [clockStaleExpiry_running h]
  exact (Jobs.tariffChange_active ..).trans (Jobs.raise_active _ _ hc)

/-! ## The Tariff State (R85, R86) -/

/-- R85: an in-use window holds the minutes from its start to its stop, past the week's end where the stop comes first. -/
theorem TariffEntry.holds_iff {w : TariffEntry} {m : Nat} : w.holds m = true ↔ w.used = true
    ∧ ((w.start < w.stop ∧ w.start ≤ m ∧ m < w.stop) ∨ (w.stop < w.start ∧ (w.start ≤ m ∨ m < w.stop))) := by
  unfold TariffEntry.holds
  rw [Bool.and_eq_true]
  refine and_congr_right fun _ => ?_
  split
  · next hlt =>
    rw [decide_eq_true_iff]
    exact ⟨fun h => .inl ⟨hlt, h⟩, fun h => h.elim (·.2) fun h => absurd h.1 (Nat.lt_asymm hlt)⟩
  · next hle =>
    rw [Bool.and_eq_true, decide_eq_true_iff, decide_eq_true_iff]
    exact ⟨.inr, fun h => h.resolve_left fun h => hle h.1⟩

theorem firstWhere_none {α : Type} {f : α → Bool} {l : List α} (h : ∀ x ∈ l, f x ≠ true) : firstWhere f l = none := by
  induction l with
  | nil => rfl
  | cons x l ih =>
    rw [firstWhere, if_neg (h x List.mem_cons_self), ih fun y hy => h y (List.mem_cons_of_mem _ hy)]
    rfl

/-- The first that passes is found. -/
theorem firstWhere_append {α : Type} {f : α → Bool} {l : List α} {x : α} (r : List α) (h : ∀ y ∈ l, f y ≠ true)
    (hx : f x = true) : firstWhere f (l ++ x :: r) = some l.length := by
  induction l with
  | nil => exact if_pos hx
  | cons y l ih =>
    rw [List.cons_append, firstWhere, if_neg (h y List.mem_cons_self), ih fun z hz => h z (List.mem_cons_of_mem _ hz)]
    rfl

/-- R86: DEAR at the default cap. -/
def TariffState.dear (set : Settings) : TariffState :=
  { band := .dear, window := none, cap := set.defaultCap, target := none }

theorem Clock.derived_unset {c : Clock} (set : Settings) (h : c.state = .unset) : c.derived set = .dear set :=
  if_pos (beq_iff_eq.mpr h)

theorem Clock.derived_outside {c : Clock} {set : Settings} (h : ∀ w ∈ set.tariff, w.holds c.tow.minute ≠ true) :
    c.derived set = .dear set := by
  unfold Clock.derived
  dsimp only
  rw [firstWhere_none h]
  exact ite_self _

/-- R86: the lowest-indexed window that holds the minute. -/
theorem Clock.derived_inside {c : Clock} {set : Settings} {before after : List TariffEntry} {w : TariffEntry}
    (hc : c.state ≠ .unset) (hset : set.tariff = before ++ w :: after) (hw : w.holds c.tow.minute = true)
    (hb : ∀ x ∈ before, x.holds c.tow.minute ≠ true) :
    c.derived set = { band := w.band, window := some ⟨before.length, w.start, w.stop⟩, cap := w.cap,
                      target := some w.target } := by
  have hfound : set.tariff.getD before.length .factory = w := by simp [hset]
  unfold Clock.derived
  dsimp only
  rw [if_neg (by simpa using hc), hset, firstWhere_append after hb hw, ← hset]
  dsimp only
  rw [hfound]

end Sys2Proof.Machine

open Sys2Proof Sys2Proof.Machine

/-- Settles O42: the expiry is `clockStaleExpiry_running`; which window a derivation finds is `Clock.derived_inside`. -/
theorem tariffStateFollowsClock : Obligations.TariffStateFollowsClock := by
  refine ⟨fun s hs hn => ?_, fun s hp hshape hr => ?_, fun set c => ?_⟩
  · rw [exec_ready hs (by decide) (by decide)]
    exact congrArg (fun t => Host.Outcome.next t.creditWatch) (State.change_idle hs.2 (clockStaleExpiry_stopped hn))
  · have hexec : exec .clockStaleExpiry s = .next (s.settled.change clockStaleExpiry).creditWatch :=
      exec_powered hp (by decide) (by decide)
    have henv := congrArg Prod.fst (clockStaleExpiry_running (p := s.settled.part) hr)
    have hhull : (s.settled.change clockStaleExpiry).jobs.hull = s.jobs.hull :=
      (State.hull_change ..).trans ((hull_clockStaleExpiry _).trans s.settled_hull)
    have hconds := (State.Move.settled.shaped hshape).conds
    refine ⟨_, hexec, ?_, (State.active_change _ rfl _).trans (clockStaleExpiry_active (p := s.settled.part) hr hconds), rfl,
      congrArg Hull.flight hhull, Jobs.hull_act hhull⟩
    rw [State.creditWatch_env, State.change_env, henv]
    rfl
  · dsimp only
    simp only [← TariffEntry.holds_iff]
    exact ⟨Clock.derived_unset set, Clock.derived_outside, fun before after w => Clock.derived_inside⟩

/-- Settles O40: the cell is classified by `classifyLine_clock`; a valid TIME item is `clockItem`, and what it causes leaves what a
command alone writes (`hull_clockItem`). -/
theorem clockCellSetsTime : Obligations.ClockCellSetsTime := by
  intro bs s hs hg hk hd
  have hexec : exec (.clock bs) s = .next (if cellDest bs = 0 then ((lineCounted s).takeClock bs).offer .field bs
      else (lineCounted s).takeClock bs).creditWatch := by
    rw [exec_line rfl hs hg]
    exact congrArg (fun t => Host.Outcome.next t.creditWatch) (classifyLine_clock (s := lineCounted s) hk hd)
  refine ⟨fun hnone => ?_, fun x rest hslots => ⟨fun hbad => ?_, fun hm hsec => ?_⟩⟩
  · rw [hexec, takeClock_invalid (by rw [hnone]; rfl)]
    rfl
  · rw [hexec, takeClock_invalid (by rw [hslots]; exact timeOfItem_outOfRange hbad)]
    rfl
  · have hitem : (slotsWith 0x40 bs).head?.bind timeOfItem = some ⟨x.field1 * 256 + x.field2, x.field3⟩ := by
      rw [hslots]
      exact timeOfItem_inRange hm hsec
    rw [takeClock_valid hitem] at hexec
    have htaken := (lineCounted s).clockTaken_change ⟨x.field1 * 256 + x.field2, x.field3⟩
    generalize (lineCounted s).change (clockItem ⟨x.field1 * 256 + x.field2, x.field3⟩) = u at hexec htaken
    obtain ⟨henv, hfield, hline, d, hjobs⟩ := u.copied_frame (cellDest bs = 0) bs
    rw [htaken.loop] at hfield hline
    refine ⟨_, hexec, ?_⟩
    rw [State.creditWatch_env, State.creditWatch_jobs, State.creditWatch_fQueue, State.creditWatch_lQueue, henv, htaken.env,
      hfield, hline, hjobs]
    exact ⟨rfl, rfl, rfl, rfl, rfl, rfl, rfl, htaken.clockUnset, htaken.clockStale, htaken.jumps, rfl, rfl, htaken.flight,
      htaken.view⟩
end

section
/-!
PROOFS. The Fill controller's figures: the minutes needed, the must-start minute and the committed test (spec/05 R92).
-/

namespace Sys2Proof.Machine

variable {e : Env} {j : Jobs}

/-! ## The minutes needed (R92) -/

theorem minutesNeeded_le (deficit flow : Nat) : minutesNeeded deficit flow ≤ 65535 := by
  unfold minutesNeeded
  split
  · exact Nat.zero_le _
  · split
    · exact Nat.le_refl _
    · exact Nat.min_le_left ..

/-- R92: below the bound the minutes needed are the least that cover the deficit. -/
theorem minutesNeeded_le_iff {deficit flow k : Nat} (hk : k < 65535) (hf : 0 < flow) :
    minutesNeeded deficit flow ≤ k ↔ deficit ≤ k * flow := by
  unfold minutesNeeded
  by_cases hd : deficit = 0
  · simp [hd]
  · rw [if_neg hd, if_neg hf.ne', min_le_iff, ← Nat.lt_succ_iff (m := (deficit + flow - 1) / flow), Nat.div_lt_iff_lt_mul hf,
      Nat.succ_mul]
    omega

/-! ## The committed test (R92) -/

/-- The minutes of the week from the start of a window to the minute. -/
def Window.since (w : Window) (m : Nat) : Nat := (m + 10080 - w.start) % 10080

/-- R92: the must-start minute is as far before the window's stop as the minutes needed and the margin reach, and no earlier than
its start. -/
theorem Window.since_mustStart {w : Window} (needed margin : Nat) (hstart : w.start < 10080) (hstop : w.stop < 10080) :
    w.since (mustStartMinute w needed margin) = w.since w.stop - (needed + margin) := by
  have hlength : w.length = w.since w.stop := rfl
  have hweek : Config.weekMinutes = 10080 := rfl
  unfold mustStartMinute
  rw [hlength, hweek]
  unfold Window.since
  split <;> omega

/-- The minutes that remain of a window in which the minute lies. -/
theorem Window.remaining_eq {w : Window} {m : Nat} (hstart : w.start < 10080) (hstop : w.stop < 10080) (hm : m < 10080)
    (hin : w.since m < w.since w.stop) : (w.stop + 10080 - m) % 10080 = w.since w.stop - w.since m := by
  unfold Window.since at *
  omega

/-- R92: the figures of a CHEAP plan in a window. -/
theorem Jobs.figure_window {w : Window} (hw : e.clock.tariff.window = some w) (hc : j.fill.cheap = true) :
    (j.figure e).fill.mustStart = some (mustStartMinute w (j.figure e).fill.needed e.set.general.fillMargin)
      ∧ (j.figure e).fill.remaining = some ((w.stop + 10080 - e.clock.tow.minute) % 10080) := by
  unfold Jobs.figure
  simp only [Jobs.plan_fill, hc, if_true, hw, Option.map_some]
  exact ⟨trivial, rfl⟩

end Sys2Proof.Machine

open Sys2Proof Sys2Proof.Machine

/-- Settles O44: both the must-start minute and the committed test measure from the window's stop (`Window.since_mustStart`,
`Window.remaining_eq`). -/
theorem committedFromMustStart : Obligations.CommittedFromMustStart := by
  refine ⟨fun deficit flow => ⟨minutesNeeded_le deficit flow, rfl, fun hd => ?_, fun k hk hf => minutesNeeded_le_iff hk hf⟩,
    fun e j w hw hc hstart hstop hm => ?_⟩
  · unfold minutesNeeded
    rw [if_neg hd.ne', if_pos rfl]
  · intro since hin
    obtain ⟨hmust, hremaining⟩ := Jobs.figure_window hw hc
    refine ⟨_, hmust, ?_⟩
    have hfrom := w.since_mustStart (j.figure e).fill.needed e.set.general.fillMargin hstart hstop
    have hleft := Window.remaining_eq hstart hstop hm hin
    change _ ↔ w.since _ ≤ w.since _
    unfold FillPlan.committedTest
    rw [hremaining, hfrom, hleft]
    dsimp only
    rw [decide_eq_true_iff]
    exact tsub_le_iff_tsub_le
end

section
/-!
PROOFS. Pumps that fault (spec/05 R98, R100, R101): what a run's end asks of the Actuator unit leaves the runs and PUMP_FAULT as
they stand, and the expiries of the prove and the dry timer.
The proofs are elaborated one after the other, which keeps the whole text inside the sandbox's memory.
-/

set_option Elab.async false

namespace Sys2Proof.Machine

variable {e : Env} {i n : Nat} {j j' j0 : Jobs} {s : State}

/-! ## Requests leave the runs alone (R66, R68) -/

/-- The runs and the mark of PUMP_FAULT are as they stood. -/
structure Jobs.RunsStand (j j' : Jobs) : Prop where
  runs : j'.runs = j.runs
  pumpFault : j'.active .pumpFault = j.active .pumpFault

theorem Jobs.RunsStand.refl (j : Jobs) : Jobs.RunsStand j j := ⟨rfl, rfl⟩

/-- A change of other fields. -/
theorem Jobs.RunsStand.same (h : Jobs.RunsStand j0 j) (hr : j'.runs = j.runs := by rfl) (ht : j'.tele = j.tele := by rfl) :
    Jobs.RunsStand j0 j' :=
  ⟨hr.trans h.runs, (congrArg (fun t => (Tele.cond t .pumpFault).active) ht).trans h.pumpFault⟩

theorem Jobs.RunsStand.notice (x : Notice) (h : Jobs.RunsStand j0 j) : Jobs.RunsStand j0 (j.notice e x) :=
  ⟨h.runs, (congrArg Prod.fst ((Tele.same_postNotice _ _ _).flags .pumpFault)).trans h.pumpFault⟩

theorem Jobs.RunsStand.raise {k : CondKind} (hk : CondKind.pumpFault ≠ k) (h : Jobs.RunsStand j0 j) :
    Jobs.RunsStand j0 (j.raise e k) :=
  ⟨h.runs, (congrArg Prod.fst (Tele.flags_raise_ne _ hk _)).trans h.pumpFault⟩

theorem Jobs.RunsStand.clear {k : CondKind} (hk : CondKind.pumpFault ≠ k) (h : Jobs.RunsStand j0 j) :
    Jobs.RunsStand j0 (j.clear e k) :=
  ⟨h.runs, (congrArg Prod.fst (Tele.flags_clear_ne _ hk _)).trans h.pumpFault⟩

theorem Jobs.RunsStand.tellOrigin (o : Origin) (i : Nat) (a : Action) (r : CmdResult) (h : Jobs.RunsStand j0 j) :
    Jobs.RunsStand j0 (j.tellOrigin e o i a r) := by
  unfold Jobs.tellOrigin
  cases o with
  | start | frostLeft => dsimp only; split <;> exact h.same
  | fill | guard | frost | allotment | operator => exact h.same

theorem Jobs.RunsStand.cancel (o : Origin) (i : Nat) (a : Action) (h : Jobs.RunsStand j0 j) :
    Jobs.RunsStand j0 (j.cancel e o i a) := by
  unfold Jobs.cancel
  split
  · exact h.tellOrigin ..
  · exact (h.notice _).tellOrigin ..

theorem Jobs.RunsStand.refuse (o : Origin) (i : Nat) (a : Action) (r : Reason) (h : Jobs.RunsStand j0 j) :
    Jobs.RunsStand j0 (j.refuse e o i a r) := ((h.same (j' := j.countRefusal)).notice _).tellOrigin ..

theorem Jobs.RunsStand.afterQueued (i : Nat) (a : Action) (h : Jobs.RunsStand j0 j) :
    Jobs.RunsStand j0 (j.afterQueued e i a) := by
  have hrest : Jobs.RunsStand j0 (j.startRest e i) := by
    unfold Jobs.startRest
    split
    · exact h
    · exact h.same
  unfold Jobs.afterQueued
  split
  · unfold Jobs.withdrawOperator
    split
    · exact hrest
    · split
      · exact hrest.same
      · exact hrest
  · exact h

theorem Jobs.RunsStand.spaceTest (h : Jobs.RunsStand j0 j) : Jobs.RunsStand j0 (j.spaceTest e) := by
  unfold Jobs.spaceTest
  split
  · exact h.clear (by decide)
  · exact h

theorem Jobs.RunsStand.fenceTest (h : Jobs.RunsStand j0 j) : Jobs.RunsStand j0 (j.fenceTest e) := by
  unfold Jobs.fenceTest
  split
  · exact (h.same (j' := { j with queue := _ })).spaceTest
  · exact h

theorem Jobs.RunsStand.restAfter (x : QueueItem) (h : Jobs.RunsStand j0 j) : Jobs.RunsStand j0 (j.restAfter e x) := by
  unfold Jobs.restAfter
  split
  · split
    · exact h.same
    · exact h
  · exact h

/-- The two outcomes of an operation that says whether it went through. -/
theorem Jobs.RunsStand.of_eq {α : Type} {p : Jobs × α} {b : α} (hp : p = (j', b)) (h : Jobs.RunsStand j0 p.1) :
    Jobs.RunsStand j0 j' := by
  subst hp
  exact h

theorem Jobs.RunsStand.join (x : QueueItem) (h : Jobs.RunsStand j0 j) : Jobs.RunsStand j0 (j.join x).1 := by
  unfold Jobs.join
  split
  · exact h.same
  · exact h

theorem Jobs.RunsStand.place (o : Origin) (i : Nat) (a : Action) (h : Jobs.RunsStand j0 j) :
    Jobs.RunsStand j0 (j.place e o i a).1 := by
  unfold Jobs.place
  split
  · next old was _ =>
    split
    · exact h.tellOrigin ..
    · split
      · split
        · next hj => exact ((h.join _).of_eq hj).join _
        · next hj => exact (h.join _).of_eq hj
      · have hreplaced : Jobs.RunsStand j0 { j with queue := replaceLast i (.cmd i a o) j.queue } := h.same
        refine Jobs.RunsStand.restAfter _ ?_
        split
        · exact hreplaced.tellOrigin ..
        · split
          · exact hreplaced
          · exact hreplaced.cancel ..
  · exact h.join _

theorem Jobs.RunsStand.enqueue (o : Origin) (i : Nat) (a : Action) (h : Jobs.RunsStand j0 j) :
    Jobs.RunsStand j0 (j.enqueue e o i a).1 := by
  unfold Jobs.enqueue
  split
  · next hp => exact ((h.place ..).of_eq hp).afterQueued ..
  · next hp => exact (h.place ..).of_eq hp

theorem Jobs.RunsStand.refuseFull (o : Origin) (i : Nat) (a : Action) (h : Jobs.RunsStand j0 j) :
    Jobs.RunsStand j0 (j.refuseFull e o i a) := (h.raise (by decide)).refuse ..

/-- R66: a command of the Fill controller is taken; it evicts nothing, as an ALLOTMENT OFF may (R145). -/
theorem Jobs.RunsStand.take (i : Nat) (a : Action) (h : Jobs.RunsStand j0 j) : Jobs.RunsStand j0 (j.take e .fill i a).1 := by
  unfold Jobs.take
  split
  · exact h.tellOrigin (e := e) .fill i a .notIssued
  · split
    · exact (h.same (j' := j.updateAct i (fun r => { r with parked := some (a, .fill) }))).tellOrigin (e := e) .fill i a .parked
    · split
      · next r _ => exact h.refuse (e := e) .fill i a r
      · rw [if_neg (by decide)]
        split
        · next hp => exact (h.enqueue ..).of_eq hp
        · next hp => exact ((h.enqueue ..).of_eq hp).refuseFull (e := e) .fill i a

theorem Jobs.RunsStand.refuseRest (o : Origin) (l : List Ask) (h : Jobs.RunsStand j0 j) :
    Jobs.RunsStand j0 (Jobs.refuseRest e o l j) := by
  induction l generalizing j with
  | nil => exact h
  | cons x l ih =>
    cases x with
    | cmd i a => exact ih (h.refuse ..)
    | fence => exact ih h

/-- R68: a request of the Fill controller. -/
theorem Jobs.RunsStand.request (l : List Ask) (h : Jobs.RunsStand j0 j) : Jobs.RunsStand j0 (Jobs.request e .fill l j) := by
  induction l generalizing j with
  | nil => exact h
  | cons x l ih =>
    cases x with
    | cmd i a =>
      unfold Jobs.request
      split
      · next hp => exact ((h.take ..).of_eq hp).refuseRest ..
      · next hp => exact ih ((h.take ..).of_eq hp)
    | fence =>
      unfold Jobs.request
      split
      · next hp => exact ih ((h.join ..).of_eq hp).fenceTest
      · next hp => exact (((h.join ..).of_eq hp).raise (by decide)).refuseRest ..

/-! ## Runs (R97, R98) -/

theorem Jobs.run_bounds (h : j.run n ≠ .powerOn) : n ≠ 0 ∧ n - 1 < j.runs.length := by
  by_contra hout
  refine h ?_
  unfold Jobs.run
  split
  · rfl
  · next h0 => exact List.getD_eq_default _ _ (Nat.le_of_not_lt fun hl => hout ⟨h0, hl⟩)

theorem Jobs.run_updateRun_self (f : Run → Run) (h0 : n ≠ 0) (hl : n - 1 < j.runs.length) :
    (j.updateRun n f).run n = f (j.run n) := by
  unfold Jobs.run Jobs.updateRun
  rw [if_neg h0, if_neg h0, if_neg h0]
  exact updateAt_getD_self f _ _ _ hl

theorem updateAt_updateAt {α : Type} (f g : α → α) (i : Nat) (l : List α) :
    updateAt g i (updateAt f i l) = updateAt (fun x => g (f x)) i l := by
  induction l generalizing i with
  | nil => cases i <;> rfl
  | cons x l ih =>
    cases i with
    | zero => rfl
    | succ i => exact congrArg (x :: ·) (ih i)

theorem Jobs.updateRun_updateRun (f g : Run → Run) (n : Nat) (j : Jobs) :
    (j.updateRun n f).updateRun n g = j.updateRun n (fun r => g (f r)) := by
  unfold Jobs.updateRun
  split
  · rfl
  · dsimp only
    rw [updateAt_updateAt]

theorem Jobs.hull_updateRun (n : Nat) (f : Run → Run) (j : Jobs) : (j.updateRun n f).hull = j.hull := by
  unfold Jobs.updateRun
  split
  · rfl
  · unfold Jobs.hull
    simp only [updateAt_length]

/-- No quantity reads a run. -/
theorem Jobs.still_updateRun (e : Env) (n : Nat) (f : Run → Run) (j : Jobs) : j.Still e (j.updateRun n f) := by
  unfold Jobs.updateRun
  split <;> exact ⟨rfl, fun _ => rfl, rfl, rfl⟩

/-- R98: the end of a run stops it; what it asks of the Actuator unit leaves the runs as they stand. -/
theorem Jobs.runsStand_endRun (e : Env) (n : Nat) (j : Jobs) : Jobs.RunsStand
    (j.updateRun n (fun r => { r with phase := .stopped, prove := none, dry := none })) (j.endRun e n) := by
  unfold Jobs.endRun
  dsimp only
  split
  · exact .refl _
  · exact ((Jobs.RunsStand.refl _).same (j' := Jobs.plan ..)).request _

theorem Jobs.endRun_phase (e : Env) (h0 : n ≠ 0) (hl : n - 1 < j.runs.length) : ((j.endRun e n).run n).phase = .stopped := by
  have hstopped := congrArg Run.phase
    (Jobs.run_updateRun_self (fun r => { r with phase := .stopped, prove := none, dry := none }) h0 hl)
  unfold Jobs.run at hstopped ⊢
  rw [(j.runsStand_endRun e n).runs]
  exact hstopped

theorem Jobs.endRun_pumpFault (e : Env) (n : Nat) (j : Jobs) : (j.endRun e n).active .pumpFault = j.active .pumpFault :=
  (j.runsStand_endRun e n).pumpFault.trans (congrArg (fun t => (Tele.cond t .pumpFault).active) (Jobs.updateRun_tele ..))

/-! ## Faults (R101) -/

theorem Jobs.faultPump_known {f : ActFault} (h : e.set.pump n = some i) :
    j.faultPump e n f = ((j.setFault i f).raise e .pumpFault).endRun e n := by
  unfold Jobs.faultPump
  rw [h]

/-- R101: a faulted pump holds the fault, its run is STOPPED and PUMP_FAULT is active. -/
theorem Jobs.faultPump_faults (f : ActFault) (h : e.set.pump n = some i) (hi : i < j.acts.length) (h0 : n ≠ 0)
    (hl : n - 1 < j.runs.length) (hc : j.tele.conds.length = 22) :
    ((j.faultPump e n f).act i).fault = f ∧ ((j.faultPump e n f).run n).phase = .stopped
      ∧ (j.faultPump e n f).active .pumpFault = true := by
  have hwrote := ((Jobs.Wrote.refl i j).setFault f hi).hull
    (((Jobs.Moves.refl (dry := false) (e := e)).raise .pumpFault rfl).endRun n).hull_eq
  rw [Jobs.faultPump_known h]
  exact ⟨ActRuntime.view_fault hwrote.view, Jobs.endRun_phase e h0 hl,
    (Jobs.endRun_pumpFault ..).trans (Jobs.raise_active _ _ hc)⟩

/-! ## The prove and the dry timer (R100, R101) -/

theorem Jobs.proveExpiry_stopped (h : (j.run n).prove = none) : j.proveExpiry e n = j := if_pos (by rw [h]; rfl)

theorem Jobs.dryExpiry_stopped (h : (j.run n).dry = none) : j.dryExpiry e n = j := if_pos (by rw [h]; rfl)

/-- R100: the expiry of a running prove timer at a run that is PROVING. -/
theorem Jobs.proveExpiry_proving (ht : (j.run n).prove ≠ none) (hp : (j.run n).phase = .proving) :
    j.proveExpiry e n =
      if e.inletLive then ((j.updateRun n (fun r => { r with prove := none })).faultPump e n .noFlow).fillEvaluate e true
      else j.updateRun n (fun r => { r with phase := .proved, metered := false, prove := none }) := by
  obtain ⟨h0, hl⟩ := Jobs.run_bounds (j := j) (n := n) fun h => ht (by rw [h]; rfl)
  unfold Jobs.proveExpiry
  dsimp only
  rw [if_neg (by simpa using ht), Jobs.run_updateRun_self _ h0 hl, if_pos hp, Jobs.updateRun_updateRun]

theorem Jobs.dryExpiry_running (ht : (j.run n).dry ≠ none) :
    j.dryExpiry e n =
      ((j.updateRun n (fun r => { r with dry := none })).faultPump e n .dryRun).fillEvaluate e true :=
  if_neg (by simpa using ht)

/-- R101: a timer of the run is stopped, its pump is faulted, and the evaluation follows. -/
theorem Jobs.wrote_faulted (g : Run → Run) (f : ActFault) (h : e.set.pump n = some i) (hi : i < j.acts.length) :
    Jobs.Wrote i { j.act i with fault := f } j.flight j (((j.updateRun n g).faultPump e n f).fillEvaluate e true) := by
  have hstopped : Jobs.Wrote i (j.act i) j.flight j (j.updateRun n g) := (Jobs.Wrote.refl i j).hull (Jobs.hull_updateRun ..)
  rw [Jobs.faultPump_known h]
  exact (hstopped.setFault f hi).hull
    ((((Jobs.Moves.refl (dry := false)).raise .pumpFault rfl).endRun n).fillEvaluate true).hull_eq

/-- What the expiry of a timer leaves when it faults the pump at entry `i`: the fault is all that a command alone writes. -/
theorem State.work_faulted {f : Env → Jobs → Jobs} {x : ActFault}
    (h : Jobs.Wrote i { s.jobs.act i with fault := x } s.jobs.flight s.jobs (f s.env s.jobs)) :
    ((s.work f).jobs.act i).fault = x ∧ ((s.work f).jobs.act i).reported = (s.jobs.act i).reported
      ∧ ((s.work f).jobs.act i).settled = (s.jobs.act i).settled ∧ s.jobs.OthersKeep i (s.work f).jobs
      ∧ (s.work f).jobs.flight = s.jobs.flight := by
  have hw := h.hull (State.hull_work f s)
  have hview := hw.view
  exact ⟨ActRuntime.view_fault hview, (ActRuntime.view_reported hview :), (ActRuntime.view_settled hview :), hw.others,
    hw.flight⟩

end Sys2Proof.Machine

open Sys2Proof Sys2Proof.Machine

/-- Settles O43: what a fault writes is `Jobs.wrote_faulted`, and the run and PUMP_FAULT after it are `Jobs.faultPump_faults`. -/
theorem pumpTimersFaultPump : Obligations.PumpTimersFaultPump := by
  refine ⟨fun n s hs => ?_, fun e j n i f hn hpump hi hruns hconds => ?_⟩
  · have hprove : exec (.proveTimerExpiry n) s = .next (s.work (fun e j => j.proveExpiry e n)).creditWatch :=
      exec_ready hs (by simp) (by simp)
    have hdry : exec (.dryTimerExpiry n) s = .next (s.work (fun e j => j.dryExpiry e n)).creditWatch :=
      exec_ready hs (by simp) (by simp)
    refine ⟨fun ht => ?stopped, fun ht => ?dryStopped, fun ht hphase hlive => ?unmetered, fun i hshape hpump => ?faults⟩
    case stopped => rw [hprove, State.work_idle hs.2 (Jobs.proveExpiry_stopped ht)]
    case dryStopped => rw [hdry, State.work_idle hs.2 (Jobs.dryExpiry_stopped ht)]
    case unmetered =>
      have hexpiry := Jobs.proveExpiry_proving (e := s.env) ht hphase
      rw [if_neg (by rw [hlive]; decide)] at hexpiry
      obtain ⟨hw, hb, -⟩ := id hs.2
      rw [hprove, State.work_still hs.2 (by rw [hexpiry]; exact Jobs.still_updateRun ..)
        (by rw [hexpiry, Jobs.updateRun_work, hw]) (by rw [hexpiry, Jobs.updateRun_fill, hb]), hexpiry]
    case faults =>
      have hi : i < s.jobs.acts.length := by
        obtain ⟨⟨-, hentries, -⟩, -⟩ := id hshape
        exact (firstWhere_lt hpump).trans_eq (hentries.trans hshape.acts.symm)
      refine ⟨fun ht hphase hlive => ⟨_, hprove, ?_⟩, fun ht => ⟨_, hdry, ?_⟩⟩
      · have hexpiry := Jobs.proveExpiry_proving (e := s.env) ht hphase
        rw [if_pos hlive] at hexpiry
        obtain ⟨hfault, hreported, hsettled, hothers, hflight⟩ := State.work_faulted (f := fun e j => j.proveExpiry e n)
          (hexpiry ▸ Jobs.wrote_faulted _ .noFlow hpump hi)
        exact ⟨hfault, hreported, hsettled, hothers, rfl, rfl, hflight⟩
      · have hexpiry := Jobs.dryExpiry_running (e := s.env) ht
        obtain ⟨hfault, hreported, hsettled, hothers, hflight⟩ := State.work_faulted (f := fun e j => j.dryExpiry e n)
          (hexpiry ▸ Jobs.wrote_faulted _ .dryRun hpump hi)
        exact ⟨hfault, hreported, hsettled, hothers, rfl, rfl, hflight⟩
  · exact Jobs.faultPump_faults f hpump hi (by omega) (by omega) hconds
end

section
/-!
PROOFS. The trip latch over a command's own effects (spec/06 R107, R110, R112): every effect but the release of R114 keeps a set
latch, and with it the band and the demands of a latched trip (`Jobs.Latches`).
The proofs are elaborated one after the other, which keeps the whole text inside the sandbox's memory.
-/

set_option Elab.async false

namespace Sys2Proof.Machine

variable {dry : Bool} {e : Env} {j0 j j' : Jobs} {p q : Part}

/-! ## The relation -/

/-- R107, R110, R112: a latched trip keeps its band and its demands, and a set latch stays set. -/
structure Jobs.Latches (j j' : Jobs) : Prop where
  held : j.guard.Held → j'.guard.Held
  latch : j.guard.latch = true → j'.guard.latch = true

theorem Jobs.Latches.refl (j : Jobs) : Jobs.Latches j j := ⟨id, id⟩

theorem Jobs.Latches.trans (h : Jobs.Latches j0 j) (h' : Jobs.Latches j j') : Jobs.Latches j0 j' :=
  ⟨h'.held ∘ h.held, h'.latch ∘ h.latch⟩

/-- A change that leaves the guard record alone. -/
theorem Jobs.Latches.same (h : Jobs.Latches j0 j) (hg : j'.guard = j.guard := by rfl) : Jobs.Latches j0 j' :=
  h.trans ⟨hg ▸ id, hg ▸ id⟩

/-- What tellings do keeps a latched trip. -/
theorem Jobs.Latches.moves (h : Jobs.Latches j0 j) (hm : Jobs.Moves false e j j') : Jobs.Latches j0 j' :=
  h.trans ⟨hm.keeps.held, hm.keeps.latch⟩

theorem Jobs.Latches.foldl {β : Type} (f : Jobs → β → Jobs) (l : List β)
    (hf : ∀ {j : Jobs} (b : β), Jobs.Latches j0 j → Jobs.Latches j0 (f j b)) (h : Jobs.Latches j0 j) :
    Jobs.Latches j0 (l.foldl f j) := by
  induction l generalizing j with
  | nil => exact h
  | cons b l ih => exact ih (hf b h)

/-! ## The guard record under the Actuator unit's operations (spec/04) -/

@[simp] theorem Jobs.raise_guard (e : Env) (k : CondKind) (j : Jobs) : (j.raise e k).guard = j.guard := rfl

@[simp] theorem Jobs.clear_guard (e : Env) (k : CondKind) (j : Jobs) : (j.clear e k).guard = j.guard := rfl

@[simp] theorem Jobs.keep_guard (e : Env) (k : CondKind) (b : Bool) (j : Jobs) : (j.keep e k b).guard = j.guard := by
  unfold Jobs.keep
  split <;> rfl

@[simp] theorem Jobs.spaceTest_guard (e : Env) (j : Jobs) : (j.spaceTest e).guard = j.guard := by
  unfold Jobs.spaceTest
  split <;> rfl

@[simp] theorem Jobs.fenceTest_guard (e : Env) (j : Jobs) : (j.fenceTest e).guard = j.guard := by
  unfold Jobs.fenceTest
  split
  · exact Jobs.spaceTest_guard ..
  · rfl

@[simp] theorem Jobs.itemsLeft_guard (e : Env) (j : Jobs) : (j.itemsLeft e).guard = j.guard :=
  (Jobs.spaceTest_guard ..).trans (Jobs.fenceTest_guard ..)

@[simp] theorem Jobs.tellOrigin_guard (e : Env) (o : Origin) (i : Nat) (a : Action) (r : CmdResult) (j : Jobs) :
    (j.tellOrigin e o i a r).guard = j.guard := by
  unfold Jobs.tellOrigin
  cases o with
  | start | frostLeft => dsimp only; split <;> rfl
  | fill | guard | frost | allotment | operator => rfl

@[simp] theorem Jobs.cancel_guard (e : Env) (o : Origin) (i : Nat) (a : Action) (j : Jobs) :
    (j.cancel e o i a).guard = j.guard := by
  unfold Jobs.cancel
  split
  · exact Jobs.tellOrigin_guard ..
  · exact Jobs.tellOrigin_guard ..

@[simp] theorem Jobs.endFlight_guard (e : Env) (f : Flight) (r : CmdResult) (j : Jobs) :
    (j.endFlight e f r).guard = j.guard := (Jobs.tellOrigin_guard ..).trans (Jobs.fenceTest_guard ..)

@[simp] theorem Jobs.lostTest_guard (e : Env) (j : Jobs) : (j.lostTest e).guard = j.guard := by
  unfold Jobs.lostTest
  split <;> rfl

@[simp] theorem Jobs.setReported_guard (e : Env) (i : Nat) (c : StateCode) (d : Nat) (u : Option Nat) (j : Jobs) :
    (j.setReported e i c d u).guard = j.guard := by
  unfold Jobs.setReported
  dsimp only
  split
  · exact Jobs.lostTest_guard ..
  · rfl

@[simp] theorem Jobs.setFault_guard (i : Nat) (f : ActFault) (j : Jobs) : (j.setFault i f).guard = j.guard := rfl

@[simp] theorem Jobs.unjam_guard (i : Nat) (j : Jobs) : (j.unjam i).guard = j.guard := by
  unfold Jobs.unjam
  split <;> rfl

@[simp] theorem Jobs.tellDiscord_guard (e : Env) (i : Nat) (j : Jobs) : (j.tellDiscord e i).guard = j.guard := by
  unfold Jobs.tellDiscord
  split <;> rfl

@[simp] theorem Jobs.statusReport_guard (e : Env) (i : Nat) (c : StateCode) (d : Nat) (u : Option Nat) (j : Jobs) :
    (j.statusReport e i c d u).guard = j.guard := by
  unfold Jobs.statusReport
  dsimp only
  split
  · exact Jobs.setReported_guard ..
  · simp

@[simp] theorem Jobs.answered_guard (e : Env) (f : Flight) (c : StateCode) (d : Nat) (j : Jobs) :
    (j.answered e f c d).guard = j.guard := by
  unfold Jobs.answered
  split
  · exact Jobs.endFlight_guard ..
  · exact Jobs.endFlight_guard ..
  · exact Jobs.endFlight_guard ..
  · split
    · simp
    · split
      · rfl
      · split <;> simp

@[simp] theorem Jobs.positionStatus_guard (e : Env) (f : Flight) (b : Bool) (c : StateCode) (j : Jobs) :
    (j.positionStatus e f b c).guard = j.guard := by
  unfold Jobs.positionStatus
  split
  · simp
  · split <;> simp

@[simp] theorem Jobs.runSecond_guard (e : Env) (j : Jobs) : (j.runSecond e).guard = j.guard := by
  unfold Jobs.runSecond
  generalize List.range Config.actuatorCount = l
  induction l generalizing j with
  | nil => rfl
  | cons i l ih =>
    refine (ih _).trans ?_
    dsimp only
    split <;> rfl

/-! ## Answers, reports and timeouts (R63, R71 to R76) -/

theorem Jobs.Latches.ackItem (i : Nat) (x : Slot) (h : Jobs.Latches j0 j) : Jobs.Latches j0 (j.ackItem e i x) := by
  refine h.same ?_
  unfold Jobs.ackItem
  split
  · rfl
  · split
    · split <;> simp
    · exact Jobs.statusReport_guard ..

theorem Jobs.Latches.statusItem (i : Nat) (x : Slot) (h : Jobs.Latches j0 j) : Jobs.Latches j0 (j.statusItem e i x) := by
  refine h.same ?_
  unfold Jobs.statusItem
  split
  · rfl
  · next code _ =>
    have reported : ∀ units, (match j.flightOf i with
        | some f =>
            match f.action with
            | .position opened => (j.setReported e i code x.field2 units).positionStatus e f opened code
            | _ => j.statusReport e i code x.field2 units
        | none => j.statusReport e i code x.field2 units).guard = j.guard := by
      intro units
      split
      · split <;> simp
      · exact Jobs.statusReport_guard ..
    dsimp only
    split <;> exact reported _

theorem Jobs.Latches.ackTimeout (i : Nat) (h : Jobs.Latches j0 j) : Jobs.Latches j0 (j.ackTimeout e i) := by
  refine h.same ?_
  unfold Jobs.ackTimeout
  split
  · rfl
  · split <;> simp

theorem Jobs.Latches.travelTimeout (i : Nat) (h : Jobs.Latches j0 j) : Jobs.Latches j0 (j.travelTimeout e i) := by
  refine h.same ?_
  unfold Jobs.travelTimeout
  split
  · rfl
  · split <;> simp

theorem Jobs.Latches.restExpiry (i : Nat) (h : Jobs.Latches j0 j) : Jobs.Latches j0 (j.restExpiry i) := by
  refine h.same ?_
  unfold Jobs.restExpiry
  split <;> rfl

theorem Jobs.Latches.issue (i : Nat) (a : Action) (o : Origin) (h : Jobs.Latches j0 j) :
    Jobs.Latches j0 (j.issue e i a o) := h.same (Jobs.itemsLeft_guard ..)

/-! ## The operator path (R78) -/

theorem Jobs.Latches.operatorQueue (i : Nat) (x : OperatorItem) (h : Jobs.Latches j0 j) :
    Jobs.Latches j0 (j.operatorQueue e i x) := by
  have queued := h.moves (Jobs.Moves.refl.enqueue (e := e) .operator i x.action)
  unfold Jobs.operatorQueue
  split
  · next hp =>
    rw [hp] at queued
    split
    · exact queued
    · exact (queued.same (j' := Jobs.updateAct ..)).moves (Jobs.Moves.refl.tellHold i true)
  · next hp =>
    rw [hp] at queued
    dsimp only
    split
    · exact queued.moves ((Jobs.Moves.refl.refuseFull ..).withdrawOperator i)
    · exact queued.moves (Jobs.Moves.refl.refuseFull ..)

theorem Jobs.Latches.postOperator (n : Nat) (h : Jobs.Latches j0 j) : Jobs.Latches j0 (j.postOperator e n) := by
  unfold Jobs.postOperator
  dsimp only
  split
  · exact h.same
  · exact (h.same (j' := Jobs.updateClaim ..)).moves Jobs.Moves.refl.pass

theorem Jobs.Latches.operatorStart (i : Nat) (x : OperatorItem) (h : Jobs.Latches j0 j) :
    Jobs.Latches j0 (j.operatorStart e i x) := by
  unfold Jobs.operatorStart
  split
  · exact h.moves (Jobs.Moves.refl.refuse ..)
  · dsimp only
    split
    · exact (h.postOperator _).moves ((Jobs.Moves.refl.refuse ..).withdrawOperator i)
    · exact (h.postOperator _).operatorQueue ..

theorem Jobs.Latches.operatorItem (i : Nat) (x : OperatorItem) (h : Jobs.Latches j0 j) :
    Jobs.Latches j0 (j.operatorItem e i x) := by
  unfold Jobs.operatorItem
  split
  · exact h.moves (Jobs.Moves.refl.endHold ..)
  · split
    · exact h.moves (Jobs.Moves.refl.refuse ..)
    · split
      · exact h.operatorStart ..
      · exact h.operatorQueue ..

theorem Jobs.Latches.operatorFence (h : Jobs.Latches j0 j) : Jobs.Latches j0 (j.operatorFence e) := by
  have joined := h.moves (Jobs.Moves.refl.join (e := e) (.fence false))
  unfold Jobs.operatorFence
  split
  · next hp => rw [hp] at joined; exact joined.same (Jobs.fenceTest_guard ..)
  · next hp => rw [hp] at joined; exact joined.same

/-! ## The expiries of the other blocks -/

theorem Jobs.Latches.faultPump (n : Nat) (f : ActFault) (h : Jobs.Latches j0 j) : Jobs.Latches j0 (j.faultPump e n f) := by
  unfold Jobs.faultPump
  split
  · exact h.moves (Jobs.Moves.refl.endRun _)
  · exact (h.same (j' := Jobs.raise _ _ (Jobs.setFault ..))).moves (Jobs.Moves.refl.endRun _)

theorem Jobs.Latches.proveExpiry (n : Nat) (h : Jobs.Latches j0 j) : Jobs.Latches j0 (j.proveExpiry e n) := by
  have stopped : Jobs.Latches j0 (j.updateRun n fun r => { r with prove := none }) := h.same (Jobs.updateRun_guard ..)
  unfold Jobs.proveExpiry
  dsimp only
  split
  · exact h
  · split
    · split
      · exact (stopped.faultPump ..).moves (Jobs.Moves.refl.fillEvaluate _)
      · exact stopped.same (Jobs.updateRun_guard ..)
    · exact stopped

theorem Jobs.Latches.dryExpiry (n : Nat) (h : Jobs.Latches j0 j) : Jobs.Latches j0 (j.dryExpiry e n) := by
  have stopped : Jobs.Latches j0 (j.updateRun n fun r => { r with dry := none }) := h.same (Jobs.updateRun_guard ..)
  unfold Jobs.dryExpiry
  split
  · exact h
  · exact (stopped.faultPump ..).moves (Jobs.Moves.refl.fillEvaluate _)

theorem Jobs.Latches.blindStartExpiry (h : Jobs.Latches j0 j) : Jobs.Latches j0 (j.blindStartExpiry e) := by
  unfold Jobs.blindStartExpiry
  split
  · exact h
  · have stopped : Jobs.Latches j (j.guarding (fun g => { g with blindStart := none })) := ⟨id, id⟩
    exact (h.trans stopped).moves (Jobs.Moves.refl.guardEvaluate _)

theorem Jobs.Latches.heaterProveExpiry (z : Nat) (h : Jobs.Latches j0 j) :
    Jobs.Latches j0 (j.heaterProveExpiry e z) := by
  unfold Jobs.heaterProveExpiry
  split
  · unfold Jobs.failHeater
    refine Jobs.Latches.moves (j := Jobs.raise _ _ (Jobs.updateZone ..)) ?_ (Jobs.Moves.refl.zoneEvaluate z)
    refine h.same ?_
    dsimp only [Jobs.raise_guard, Jobs.updateZone_guard]
    split <;> rfl
  · exact h

theorem Jobs.Latches.splitExpiry (h : Jobs.Latches j0 j) : Jobs.Latches j0 (j.splitExpiry e) := by
  refine h.same ?_
  unfold Jobs.splitExpiry
  split <;> rfl

theorem Jobs.Latches.clearFault (i : Nat) (h : Jobs.Latches j0 j) : Jobs.Latches j0 (j.clearFault e i) := by
  refine h.same ?_
  unfold Jobs.clearFault
  split
  · rfl
  · dsimp only
    split
    · rfl
    · rfl
    · rfl
    · split <;> rfl

/-! ## The release (R114) -/

/-- R114: the release leaves no latched trip to hold. -/
theorem Jobs.held_releaseTrip (e : Env) (h : j.guard.Held) : (j.releaseTrip e).1.guard.Held := by
  unfold Jobs.releaseTrip
  split
  · exact h
  · split
    · have released : ((j.guarding (fun g =>
          { g with latch := false, pumpDemand := false, inletDemand := false, drainDemand := none,
                   band := e.set.guard.reached j.level.guard })).askWord).guard.Held := nofun
      exact ((((Jobs.Moves.refl (dry := false).clear _ rfl).clear _ rfl).clear _ rfl).guardGroup _).keeps.held released
    · exact h

/-- Every effect of a command keeps a latched trip, but for the release. -/
theorem Jobs.Effect.latches (h : Jobs.Effect e j j') : Jobs.Latches j j' ∨ j' = (j.releaseTrip e).1 := by
  have h0 := Jobs.Latches.refl j
  cases h with
  | releaseTrip => exact .inr rfl
  | raise | clear | acknowledge | urgentSent | openedSent | pulseExpiry | minimumExpiry | maximumExpiry
    | packHoldExpiry => exact .inl h0.same
  | issue => exact .inl (h0.issue ..)
  | statusItem => exact .inl (h0.statusItem ..)
  | ackItem => exact .inl (h0.ackItem ..)
  | operatorItem => exact .inl (h0.operatorItem ..)
  | operatorFence => exact .inl h0.operatorFence
  | ackTimeout => exact .inl (h0.ackTimeout _)
  | travelTimeout => exact .inl (h0.travelTimeout _)
  | restExpiry => exact .inl (h0.restExpiry _)
  | holdExpiry => exact .inl (h0.moves (Jobs.Moves.refl.endHold ..))
  | proveExpiry => exact .inl (h0.proveExpiry _)
  | dryExpiry => exact .inl (h0.dryExpiry _)
  | blindStartExpiry => exact .inl h0.blindStartExpiry
  | heaterProveExpiry => exact .inl (h0.heaterProveExpiry _)
  | splitExpiry => exact .inl h0.splitExpiry
  | clearFault => exact .inl (h0.clearFault _)
  | takeStore => exact .inl h0.same

end Sys2Proof.Machine
end

section
/-!
PROOFS. The trip latch over effects that move the time, the settings or a head, and over whole steps (spec/06 R107, R110, R112).
The proofs are elaborated one after the other, which keeps the whole text inside the sandbox's memory.
-/

set_option Elab.async false

namespace Sys2Proof.Machine

variable {dry : Bool} {e : Env} {j0 j j' : Jobs} {p q : Part} {s t : State}

/-! ## Time and heads (spec/02, spec/05) -/

@[simp] theorem Jobs.tariffChange_guard (a c : Env) (j : Jobs) : (j.tariffChange a c).guard = j.guard := by
  unfold Jobs.tariffChange
  split <;> rfl

@[simp] theorem Jobs.countJump_guard (c : Clock) (t : TimeOfWeek) (j : Jobs) : (j.countJump c t).guard = j.guard := by
  unfold Jobs.countJump
  split <;> rfl

@[simp] theorem Jobs.leftStale_guard (e : Env) (was : HeadState) (j : Jobs) : (j.leftStale e was).guard = j.guard := by
  unfold Jobs.leftStale
  split
  · exact Jobs.keep_guard ..
  · rfl

theorem tick_guard (p : Part) : (tick p).2.guard = p.2.guard := by
  unfold tick
  dsimp only
  split <;> simp

theorem clockItem_guard (t : TimeOfWeek) (p : Part) : (clockItem t p).2.guard = p.2.guard := by
  simp [clockItem, Jobs.clockTaken]

theorem clockStaleExpiry_guard (p : Part) : (clockStaleExpiry p).2.guard = p.2.guard := by
  unfold clockStaleExpiry
  split
  · exact Jobs.tariffChange_guard ..
  · rfl

theorem heard_guard (bs : List Byte) (p : Part) : (heard bs p).2.guard = p.2.guard := by
  obtain ⟨t, ht, -⟩ := heard_tele bs p
  rw [ht]

theorem takeItem_guard (a : Nat) (x : SampleItem) (p : Part) : (takeItem a x p).2.guard = p.2.guard := by
  unfold takeItem
  split
  · rfl
  · unfold takeValue
    dsimp only
    split <;> simp [Jobs.deliver]
  · simp [takeFault, Jobs.unusable]

theorem staleExpiry_guard (a : Nat) (p : Part) : (staleExpiry a p).2.guard = p.2.guard := by
  unfold staleExpiry
  split
  · dsimp only
    split
    · rfl
    · exact Jobs.keep_guard ..
  · rfl

/-! ## What the owners of a table do at a write (R176) -/

theorem Jobs.Latches.leaveHeaters (before : Settings) (h : Jobs.Latches j0 j) :
    Jobs.Latches j0 (j.leaveHeaters e before) := by
  refine Jobs.Latches.foldl _ _ (fun {k} z hk => ?_) h
  unfold Jobs.leaveHeater
  split
  · exact hk
  · split
    · exact hk
    · dsimp only
      split
      · exact (hk.same (j' := Jobs.updateZone ..)).moves (Jobs.Moves.refl.request ..)
      · exact hk.same

theorem Jobs.Latches.zonesWritten (before : Settings) (h : Jobs.Latches j0 j) :
    Jobs.Latches j0 (j.zonesWritten e before) := (h.leaveHeaters before).same

theorem headWritten_guard (a : Nat) (old : HeadSettings) (p : Part) : (headWritten a old p).2.guard = p.2.guard := by
  have disabled : ∀ h q, (disableHead a h q).2.guard = q.2.guard := fun _ _ => Jobs.keep_guard ..
  unfold headWritten
  dsimp only
  split
  · rfl
  · rfl
  · exact disabled ..
  · split
    · exact disabled ..
    · split <;> rfl

theorem Jobs.latches_tellHeads (before : Settings) (a : Nat) (p : Part) : Jobs.Latches p.2 (tellHeads before a p).2 := by
  have written := (Jobs.Latches.refl p.2).same (headWritten_guard a (before.head a) p)
  refine Jobs.Latches.zonesWritten _ ?_
  split
  · exact (written.moves Jobs.Moves.refl.incumbents).same
  · exact written

theorem Jobs.cancelUnsent_guard (e : Env) (i : Nat) (j : Jobs) : (j.cancelUnsent e i).guard = j.guard := by
  unfold Jobs.cancelUnsent
  dsimp only
  have folded : ∀ (l : List QueueItem) (k : Jobs), (l.foldl (fun j x => match x with
      | .cmd k a o => j.cancel e o k a
      | .fence _ => j) k).guard = k.guard := by
    intro l
    induction l with
    | nil => exact fun _ => rfl
    | cons x l ih =>
      intro k
      refine (ih _).trans ?_
      cases x with
      | cmd k a o => exact Jobs.cancel_guard ..
      | fence g => rfl
  exact folded _ _

theorem Jobs.Latches.entryChanged (before : Settings) (i : Nat) (h : Jobs.Latches j0 j) :
    Jobs.Latches j0 (j.entryChanged e before i) := by
  have reset : ∀ f, ((((j.cancelUnsent e i).abandon i).itemsLeft e).updateAct i f).guard = j.guard := fun f =>
    (Jobs.itemsLeft_guard ..).trans (Jobs.cancelUnsent_guard ..)
  have claim : ∀ k : Jobs, (match before.pumpNumber i with
      | none => k
      | some n => if (k.claim (n - 1)).operator then
          (k.updateClaim (n - 1) (fun c => { c with operator := false })).startPass else k).guard = k.guard := by
    intro k
    split
    · rfl
    · split <;> rfl
  have zone : ∀ (lost : Bool) (k : Jobs), (match (before.heaterZone i).or (e.set.heaterZone i) with
      | none => k
      | some z => k.updateZone z (Zone.entryMoved lost)).guard = k.guard := by
    intro lost k
    split <;> rfl
  unfold Jobs.entryChanged
  dsimp only
  split
  · refine Jobs.Latches.moves (h.same ?_) (Jobs.Moves.refl.request ..)
    exact (zone ..).trans ((claim _).trans (reset _))
  · exact h.same ((zone ..).trans ((claim _).trans (reset _)))

theorem Jobs.Latches.actuatorWritten (before : Settings) (i : Nat) (h : Jobs.Latches j0 j) :
    Jobs.Latches j0 (j.actuatorWritten e before i) := by
  have told : ∀ {k}, Jobs.Latches j0 k → Jobs.Latches j0 ((((k.lostTest e).incumbents e).tell
      (actuatorTold before e.set i)).zonesWritten e before) := fun hk =>
    (((hk.same (Jobs.lostTest_guard ..)).moves Jobs.Moves.refl.incumbents).same).zonesWritten before
  unfold Jobs.actuatorWritten
  dsimp only
  split
  · exact told (h.entryChanged ..)
  · exact told h

@[simp] theorem Jobs.clearSuspect_guard (a : Nat) (j : Jobs) : (j.clearSuspect a).guard = j.guard := by
  unfold Jobs.clearSuspect
  split <;> rfl

theorem Jobs.guardWritten_guard (e : Env) (before : Settings) (j : Jobs) : (j.guardWritten e before).guard = j.guard := by
  have flag : ∀ (k : HeadKind) (was now : Option Nat) (i : Jobs), (match e.set.knownKind k with
      | none => i
      | some a => if was.isSome && was != now then i.clearSuspect a else i).guard = i.guard := by
    intro k was now i
    split
    · rfl
    · split <;> simp
  unfold Jobs.guardWritten
  dsimp only
  split <;> exact (flag ..).trans (flag ..)

theorem Jobs.Latches.zoneWritten (before : Settings) (i : Nat) (h : Jobs.Latches j0 j) :
    Jobs.Latches j0 (j.zoneWritten e before i) := by
  unfold Jobs.zoneWritten
  split
  · exact h.same
  · dsimp only
    split
    · exact (h.leaveHeaters before).same
    · exact ((h.same (j' := Jobs.updateZone ..)).leaveHeaters before).same

theorem Jobs.latches_ownerTold (t : Table) (i g : Nat) (before : Settings) (p : Part) :
    Jobs.Latches p.2 (ownerTold t i g before p).2 := by
  have h0 := Jobs.Latches.refl p.2
  unfold ownerTold
  dsimp only
  split
  · split
    · exact h0
    · split <;> exact h0.same
  · exact Jobs.latches_tellHeads ..
  · exact h0.actuatorWritten ..
  · exact h0.same (Jobs.tariffChange_guard ..)
  · split
    · exact h0
    · exact h0.same
  · exact h0.same (Jobs.guardWritten_guard ..)
  · exact h0.zoneWritten ..
  · exact h0.same (Jobs.tariffChange_guard ..)
  · exact h0.same
  · exact h0.same

theorem Jobs.latches_takeWrite (t : Table) (i g : Nat) (new : Settings) (p : Part) :
    Jobs.Latches p.2 (takeWrite t i g new p).2 :=
  Jobs.latches_ownerTold t i g p.1.set ({ p.1 with set := new }, p.2)

/-- Every effect of a command keeps a latched trip, but for the release. -/
theorem Part.Effect.latches (h : Part.Effect p q) : Jobs.Latches p.2 q.2 ∨ q.2 = (p.2.releaseTrip p.1).1 := by
  have h0 := Jobs.Latches.refl p.2
  cases h with
  | jobs h => exact h.latches
  | tick => exact .inl (h0.same (tick_guard p))
  | idle => exact .inl h0
  | clockItem t => exact .inl (h0.same (clockItem_guard t p))
  | clockStaleExpiry => exact .inl (h0.same (clockStaleExpiry_guard p))
  | heard bs => exact .inl (h0.same (heard_guard bs p))
  | takeItem a x => exact .inl (h0.same (takeItem_guard a x p))
  | staleExpiry a => exact .inl (h0.same (staleExpiry_guard a p))
  | write => exact .inl (Jobs.latches_takeWrite ..)

/-! ## Steps -/

/-- R116, R117: what follows a reset keeps a latched trip. -/
theorem Jobs.held_resetTaken (e : Env) (h : j.guard.Held) : (j.resetTaken e).guard.Held :=
  (Jobs.moves_settle ..).keeps.held ((Jobs.keeps_resetTold false e j).held h)

theorem State.held_restart (set : Settings) (h : s.jobs.guard.Held) : (s.restart set).jobs.guard.Held := by
  obtain ⟨t, w, c, heq⟩ := s.restart_eq set
  rw [heq]
  exact Jobs.held_resetTaken (j := { s.jobs.restarted (s.env.restarted set) with tele := t, work := w, choices := c }) _ h

/-- R116: a latch word that is set brings the demands of the trip back. -/
theorem State.held_powerUp (s : State) : s.powerUp.jobs.guard.Held := by
  obtain ⟨t, -, -, heq⟩ := s.powerUp_eq
  rw [heq]
  refine Jobs.held_resetTaken _ fun hl => ?_
  have hword : s.jobs.store.survive.word = true := hl
  simp [Jobs.atPowerOn, GuardRecord.powerOn, hword]

theorem State.Move.held (hm : State.Move s t) (h : s.jobs.guard.Held) : t.jobs.guard.Held := by
  cases hm with
  | change f hf =>
    refine (Jobs.moves_complete ..).keeps.held ?_
    rcases hf.latches with hl | hr
    · exact hl.held h
    · rw [hr]
      exact Jobs.held_releaseTrip _ h
  | settled => exact (Jobs.moves_settle ..).keeps.held h
  | restart set => exact State.held_restart set h
  | loop | count | store | lock => exact h

end Sys2Proof.Machine

open Sys2Proof Sys2Proof.Machine

/-- Settles O7: every move of which a step consists keeps a latched trip (`State.Move.held`); the release takes the latch away. -/
theorem stepKeepsLatchedTrip : Obligations.StepKeepsLatchedTrip := fun _ _ hs h =>
  step_induction (P := fun s => s.jobs.guard.Held) (fun _ _ => id) (fun s _ => s.held_powerUp)
    (fun _ _ => nofun) State.Move.held h hs
end

section
/-!
PROOFS. Only a local RELEASE_TRIP clears the trip latch of a part that has power (spec/06 R110, R114): whatever else a command does,
a set latch stays set.
The proofs are elaborated one after the other, which keeps the whole text inside the sandbox's memory.
-/

set_option Elab.async false

namespace Sys2Proof.Machine

variable {p : Port} {r : Request} {bs : List Byte} {s : State}

/-- R110: the trip latch is set. -/
def State.Tripped (s : State) : Prop := s.jobs.guard.latch = true

/-! ## Changes and what they cause -/

theorem State.Tripped.change (h : s.Tripped) {f : Part → Part} (hf : Jobs.Latches s.jobs (f s.part).2) :
    (s.change f).Tripped := (Jobs.moves_complete ..).keeps.latch (hf.latch h)

theorem State.Tripped.work (h : s.Tripped) {f : Env → Jobs → Jobs} (hf : Jobs.Latches s.jobs (f s.env s.jobs)) :
    (s.work f).Tripped := State.Tripped.change (f := fun q => (q.1, f q.1 q.2)) h hf

theorem State.Tripped.foldl {β : Type} (f : State → β → State) (l : List β)
    (hf : ∀ {s : State} (b : β), s.Tripped → (f s b).Tripped) (h : s.Tripped) : (l.foldl f s).Tripped := by
  induction l generalizing s with
  | nil => exact h
  | cons b l ih => exact ih (hf b h)

theorem State.Tripped.loop (h : s.Tripped) (l : Loop) : ({ s with loop := l } : State).Tripped := h

theorem State.Tripped.count (h : s.Tripped) (f : Counters → Counters) : (s.tally (Jobs.count f)).Tripped := h

theorem State.Tripped.stored (h : s.Tripped) (f : Jobs → Store → Store) : (s.tally fun j => j.stored (f j)).Tripped := h

/-- A change of the Condition and Report units. -/
theorem State.Tripped.tele (h : s.Tripped) (f : TeleEnv → Tele → Tele) : (s.work (Jobs.tele' f)).Tripped :=
  h.work (Jobs.Latches.refl _).same

theorem State.Tripped.countBad (h : s.Tripped) (p : Port) : (s.tally (Jobs.countBad p)).Tripped := by
  cases p <;> exact h

theorem State.Tripped.offer (h : s.Tripped) (p : Port) (bs : List Byte) : (s.offer p bs).Tripped := by
  have counted : ∀ b, (s.jobs.countDisplaced b).guard.latch = true := fun b => by cases b <;> exact h
  exact counted _

theorem State.Tripped.settled (h : s.Tripped) : s.settled.Tripped := (Jobs.moves_settle ..).keeps.latch h

/-! ## Requests (spec/11) -/

theorem State.Tripped.answer (h : s.Tripped) (r : Request) (res : Result) (d : List Byte) :
    (s.answer r res d).Tripped := h.offer ..

/-- R117: a restart keeps the latch. -/
theorem State.Tripped.restart (h : s.Tripped) (set : Settings) : (s.restart set).Tripped :=
  (State.restarted_restart set s).latch h

theorem State.Tripped.carryOut (h : s.Tripped) (hk : r.kind ≠ 11) : (s.carryOut r).Tripped := by
  have h0 := Jobs.Latches.refl s.jobs
  unfold State.carryOut
  split
  · exact h.answer ..
  · split
    · next t new _ _ =>
      exact (h.change (f := takeWrite t r.index r.group new) (Jobs.latches_takeWrite t r.index r.group new s.part)).answer ..
    · exact h
  · exact h.answer ..
  · split
    · next k _ => exact (h.tele fun v t => t.acknowledge v k).answer ..
    · exact h
  · exact (h.work (h0.clearFault _)).answer ..
  · exact h.work (f := fun e j => j.takeStore e.set r) h0.same
  · unfold State.recall
    split
    · exact h.restart _
    · exact h.answer ..
  · exact h.restart _
  · exact State.Tripped.answer (s := s.setLock true) h ..
  · exact State.Tripped.answer (s := s.setLock false) h ..
  · exact absurd ‹r.kind = 11› hk
  · exact h

/-- R173: a RELEASE_TRIP that is not the local source's is answered LOCAL_ONLY. -/
theorem firstFailure_releaseTrip_line (e : Env) (j : Jobs) (hk : r.kind = 11) (hs : r.source ≠ .local) :
    firstFailure e j r = some .localOnly := by
  have hline : r.source = .line := by cases h : r.source <;> simp_all
  simp [firstFailure, hk, hline, within, localKind]

/-- R114: the request, if the cell carries one that is taken, is no RELEASE_TRIP of the local source. -/
def NoRelease (p : Port) (bs : List Byte) (set : Settings) : Prop :=
  ∀ r, requestOf set p bs = some r → r.kind = 11 → r.source ≠ .local

theorem State.Tripped.manage (h : s.Tripped) (hn : NoRelease p bs s.env.set) : (s.manage p bs).Tripped := by
  unfold State.manage
  split
  · exact h
  · next r hr =>
    by_cases hk : r.kind = 11
    · rw [firstFailure_releaseTrip_line s.env s.jobs hk (hn r hr hk)]
      exact h.answer ..
    · split
      · exact h.answer ..
      · exact h.carryOut hk

/-! ## Arrivals (spec/01) -/

theorem State.Tripped.forwardUp (h : s.Tripped) (bs : List Byte) : (s.forwardUp bs).Tripped := by
  unfold State.forwardUp
  split
  · exact h.offer ..
  · exact h

theorem State.Tripped.takeSample (h : s.Tripped) (bs : List Byte) : (s.takeSample bs).Tripped := by
  unfold State.takeSample
  split
  · exact .foldl _ _ (fun {s} x hs => hs.change ((Jobs.Latches.refl _).same (takeItem_guard _ x s.part))) h
  · exact h.countBad .field

theorem State.Tripped.takeStatus (h : s.Tripped) (bs : List Byte) : (s.takeStatus bs).Tripped := by
  unfold State.takeStatus
  split
  · exact .foldl _ _ (fun x hs => hs.work ((Jobs.Latches.refl _).statusItem _ x)) h
  · exact h

theorem State.Tripped.takeAck (h : s.Tripped) (bs : List Byte) : (s.takeAck bs).Tripped := by
  unfold State.takeAck
  split
  · exact .foldl _ _ (fun x hs => hs.work ((Jobs.Latches.refl _).ackItem _ x)) h
  · exact h.countBad .field

theorem State.Tripped.classifyField (h : s.Tripped)
    (hn : cellKind bs = kindMgmtReq → cellDest bs = s.env.set.general.ownAddress → NoRelease .field bs s.env.set) :
    (s.classifyField bs).Tripped := by
  unfold State.classifyField
  dsimp only
  split
  · exact (h.takeSample bs).forwardUp bs
  · split
    · exact (h.takeStatus bs).forwardUp bs
    · split
      · next hown =>
        split
        · exact h.takeAck bs
        · split
          · next hkind => exact h.manage (hn hkind hown)
          · exact h.countBad .field
      · split
        · exact h
        · exact h.offer ..

theorem State.Tripped.takeClock (h : s.Tripped) (bs : List Byte) : (s.takeClock bs).Tripped := by
  unfold State.takeClock
  split
  · exact h.countBad .line
  · next t _ => exact h.change (f := clockItem t) ((Jobs.Latches.refl _).same (clockItem_guard t s.part))

theorem State.Tripped.takeCommand (h : s.Tripped) (i : Nat) (bs : List Byte) : (s.takeCommand i bs).Tripped :=
  .foldl _ _ (fun x hs => hs.work ((Jobs.Latches.refl _).operatorItem i x)) h

theorem State.Tripped.takeCredit (h : s.Tripped) (bs : List Byte) : (s.takeCredit bs).Tripped := by
  unfold State.takeCredit
  split
  · exact h
  · exact h.countBad .line

theorem State.Tripped.classifyLine (h : s.Tripped)
    (hn : cellKind bs = kindMgmtReq → cellDest bs = s.env.set.general.ownAddress → NoRelease .line bs s.env.set) :
    (s.classifyLine bs).Tripped := by
  unfold State.classifyLine
  dsimp only
  split
  · split
    · exact h.takeCommand ..
    · exact h
  · split
    · exact h
    · split
      · exact h.work (Jobs.Latches.refl _).operatorFence
      · split
        · exact (h.takeClock bs).offer ..
        · split
          · exact h.takeClock bs
          · split
            · exact h.takeCredit bs
            · split
              · next hreq => exact h.manage (hn hreq.1 hreq.2)
              · split
                · exact h.countBad .line
                · split
                  · exact h
                  · exact h.offer ..

theorem State.Tripped.badArrival (h : s.Tripped) (p : Port) : (s.badArrival p).Tripped := by
  cases p with
  | line => exact h
  | field =>
    unfold State.badArrival
    dsimp only
    split
    · exact ((h.countBad .field).loop _).tele fun v t => t.raise v .loopNoise
    · exact h

/-- An arrival keeps a set latch, unless it is that of a RELEASE_TRIP from the local source. -/
theorem State.Tripped.arrive (h : s.Tripped)
    (hn : ∀ r, s.Requested p bs r → r.kind = 11 → r.source ≠ .local) : (s.settled.arrive p bs).Tripped := by
  unfold State.arrive
  split
  · next hgood =>
    have heard := State.received_latch p bs h
    have hset := (s.received_frame p bs).set
    have request : cellKind bs = kindMgmtReq → cellDest bs = (s.settled.received p bs).env.set.general.ownAddress →
        NoRelease p bs (s.settled.received p bs).env.set := by
      rw [hset]
      exact fun hkind hdest r hr => hn r ⟨hgood, hkind, hdest, hr⟩
    cases p with
    | field => exact State.Tripped.classifyField heard request
    | line => exact State.Tripped.classifyLine heard request
  · exact h.settled.badArrival p

/-! ## Sends (spec/01) -/

theorem State.Tripped.lineSend (h : s.Tripped) (bs : List Byte) (f : Tele → TeleEnv → Tele) :
    (s.lineSend bs f).Tripped := (h.loop _).work (Jobs.Latches.refl _).same

theorem State.Tripped.lineArbiter (h : s.Tripped) : s.lineArbiter.Tripped := by
  have report : s.sendReport.Tripped := (h.loop _).lineSend ..
  unfold State.lineArbiter
  split
  · split
    · exact (h.loop _).lineSend ..
    · unfold State.sendRoutine
      split
      · split
        · exact report
        · exact ((h.loop _).count _).lineSend ..
      · exact report
  · exact h

theorem State.Tripped.fieldArbiter (h : s.Tripped) : s.fieldArbiter.Tripped := by
  unfold State.fieldArbiter
  split
  · exact h
  · split
    · next i a o _ => exact (h.loop _).work ((Jobs.Latches.refl _).issue i a o)
    · split
      · exact (h.loop _).count _
      · exact h

/-! ## The other commands -/

theorem State.Tripped.storeCompletes (h : s.Tripped) : s.storeCompletes.Tripped := by
  have answered : s.answerStore.Tripped := by
    unfold State.answerStore
    split
    · exact h
    · exact h.offer ..
  unfold State.storeCompletes
  split
  · exact ((answered.count _).tele fun v t => t.clear v .settingsLost).stored fun j => Store.completed j.guard.latch
  · exact h

theorem State.Tripped.creditWaitExpiry (h : s.Tripped) : s.creditWaitExpiry.Tripped := by
  unfold State.creditWaitExpiry
  split
  · exact (h.loop _).tele fun v t => t.raise v .lineStalled
  · exact h

/-- A command that is no arrival keeps a set latch. -/
theorem State.Tripped.effect (h : s.Tripped) {c : Instr} (hc : arrivalOf c = none) : (effectOf c s).Tripped := by
  have h0 := Jobs.Latches.refl s.jobs
  cases c
  case powerOn | powerLoss => exact h
  case latchWordWriteCompletion => exact h.stored fun j => Store.wordWritten s.env.set j.guard.latch
  case deferredStoreBegin =>
    show s.deferredStore.Tripped
    unfold State.deferredStore
    split
    · exact h.stored fun j => Store.beginNext s.env.set j.guard.latch
    · exact h
  case latchWordWriteDeferred =>
    show s.deferredWrite.Tripped
    unfold State.deferredWrite
    split
    · exact h.stored fun j => Store.beginNext s.env.set j.guard.latch
    · exact h
  case storeCompletion => exact h.storeCompletes
  case transmitCompletion p => cases p <;> exact h
  case lPortSendBegin => exact h.lineArbiter
  case fPortSendBegin => exact h.fieldArbiter
  case secondTick => exact h.change (h0.same (tick_guard s.part))
  case minuteBoundary =>
    refine h.change (f := minuteTick) ?_
    unfold minuteTick
    split
    · exact h0.same (tick_guard s.part)
    · exact h0
  case creditWaitExpiry => exact h.creditWaitExpiry
  case staleTimerExpiry a => exact h.change (h0.same (staleExpiry_guard a s.part))
  case splitTimerExpiry => exact h.work h0.splitExpiry
  case restTimerExpiry i => exact h.work (h0.restExpiry i)
  case ackTimeoutExpiry i => exact h.work (h0.ackTimeout i)
  case valveTravelExpiry i => exact h.work (h0.travelTimeout i)
  case holdTimerExpiry i => exact h.work (h0.moves (Jobs.Moves.refl.endHold .expiry i))
  case clockStaleExpiry => exact h.change (h0.same (clockStaleExpiry_guard s.part))
  case proveTimerExpiry n => exact h.work (h0.proveExpiry n)
  case dryTimerExpiry n => exact h.work (h0.dryExpiry n)
  case blindStartTimerExpiry => exact h.work h0.blindStartExpiry
  case heaterProveTimerExpiry z => exact h.work (h0.heaterProveExpiry z)
  case pulseTimerExpiry | minimumTimerExpiry | maximumTimerExpiry | packHoldExpiry => exact h.work h0.same
  all_goals exact absurd hc (Option.some_ne_none _)

end Sys2Proof.Machine

open Sys2Proof Sys2Proof.Machine

/-- Settles O8: an arrival that is no such request keeps a set latch (`State.Tripped.arrive`), and so does every command that is
no arrival (`State.Tripped.effect`). -/
theorem onlyRequestsClearLatch : Obligations.OnlyRequestsClearLatch := by
  intro c s t hp hl hon hoff hn h
  cases hc : arrivalOf c with
  | none =>
    rw [exec_powered hp hon hoff] at h
    cases h
    exact State.Tripped.effect (State.Tripped.settled hl) hc
  | some x =>
    obtain ⟨p, bs⟩ := x
    rw [exec_arrival hc] at h
    unfold State.powerCommand at h
    rw [if_pos hp] at h
    cases h
    exact State.Tripped.arrive hl fun r => hn p bs r hc
end

section
/-!
PROOFS. The Overflow guard (spec/06): what queuing a guard group leaves alone (R69) and the band of an evaluation (R107).
The proofs are elaborated one after the other, which keeps the whole text inside the sandbox's memory.
-/

set_option Elab.async false

namespace Sys2Proof.Machine

variable {e : Env} {j0 j j' : Jobs} {p : Port} {r : Request} {s : State} {bs : List Byte}

/-! ## What queuing a guard group leaves alone (R69, R70) -/

/-- The guard record, the Level Record, the settings store and the conditions but QUEUE_FULL are as they stood. -/
structure Jobs.GroupKeeps (j j' : Jobs) : Prop where
  guard : j'.guard = j.guard
  level : j'.level = j.level
  store : j'.store = j.store
  flags : ∀ k, k ≠ CondKind.queueFull → j'.tele.flags k = j.tele.flags k

theorem Jobs.GroupKeeps.refl (j : Jobs) : Jobs.GroupKeeps j j := ⟨rfl, rfl, rfl, fun _ _ => rfl⟩

/-- A change of other fields. -/
theorem Jobs.GroupKeeps.same (h : Jobs.GroupKeeps j0 j) (hg : j'.guard = j.guard := by rfl)
    (hl : j'.level = j.level := by rfl) (hs : j'.store = j.store := by rfl) (ht : j'.tele = j.tele := by rfl) :
    Jobs.GroupKeeps j0 j' :=
  ⟨hg.trans h.guard, hl.trans h.level, hs.trans h.store, fun k hk => ht ▸ h.flags k hk⟩

theorem Jobs.GroupKeeps.notice (x : Notice) (h : Jobs.GroupKeeps j0 j) : Jobs.GroupKeeps j0 (j.notice e x) :=
  ⟨h.guard, h.level, h.store, fun k hk => ((Tele.same_postNotice _ _ _).flags k).trans (h.flags k hk)⟩

theorem Jobs.GroupKeeps.foldl {β : Type} (f : Jobs → β → Jobs) (l : List β)
    (hf : ∀ {j : Jobs} (b : β), Jobs.GroupKeeps j0 j → Jobs.GroupKeeps j0 (f j b)) (h : Jobs.GroupKeeps j0 j) :
    Jobs.GroupKeeps j0 (l.foldl f j) := by
  induction l generalizing j with
  | nil => exact h
  | cons b l ih => exact ih (hf b h)

theorem Jobs.GroupKeeps.spaceTest (h : Jobs.GroupKeeps j0 j) : Jobs.GroupKeeps j0 (j.spaceTest e) := by
  unfold Jobs.spaceTest
  split
  · exact ⟨h.guard, h.level, h.store, fun k hk => (Tele.flags_clear_ne _ hk _).trans (h.flags k hk)⟩
  · exact h

theorem Jobs.GroupKeeps.fenceTest (h : Jobs.GroupKeeps j0 j) : Jobs.GroupKeeps j0 (j.fenceTest e) := by
  unfold Jobs.fenceTest
  split
  · exact (h.same (j' := { j with queue := _ })).spaceTest
  · exact h

theorem Jobs.GroupKeeps.itemsLeft (h : Jobs.GroupKeeps j0 j) : Jobs.GroupKeeps j0 (j.itemsLeft e) :=
  h.fenceTest.spaceTest

theorem Jobs.GroupKeeps.cancel (o : Origin) (i : Nat) (a : Action) (h : Jobs.GroupKeeps j0 j) :
    Jobs.GroupKeeps j0 (j.cancel e o i a) := by
  have told : ∀ {k : Jobs}, Jobs.GroupKeeps j0 k → Jobs.GroupKeeps j0 (k.tellOrigin e o i a .cancelled) := by
    intro k hk
    unfold Jobs.tellOrigin
    cases o with
    | start | frostLeft => dsimp only; split <;> exact hk.same
    | fill | guard | frost | allotment | operator => exact hk.same
  unfold Jobs.cancel
  split
  · exact told h
  · exact told (h.notice _)

theorem Jobs.GroupKeeps.removed (x : QueueItem) (h : Jobs.GroupKeeps j0 j) : Jobs.GroupKeeps j0 (j.removed e x) := by
  cases x with
  | fence g => exact h
  | cmd i a o =>
    show Jobs.GroupKeeps j0 ((j.cancel e o i a).restAfter e _)
    unfold Jobs.restAfter
    split
    · split
      · exact (h.cancel o i a).same
      · exact h.cancel o i a
    · exact h.cancel o i a

theorem Jobs.GroupKeeps.evict (n : Nat) (h : Jobs.GroupKeeps j0 j) : Jobs.GroupKeeps j0 (Jobs.evict e n j) := by
  induction n generalizing j with
  | zero => exact h
  | succ n ih =>
    unfold Jobs.evict
    split
    · exact h
    · refine ih ?_
      unfold Jobs.evictTail
      split
      · exact h
      · split
        · exact h
        · exact ((h.same (j' := { j with queue := _ })).removed _).itemsLeft

theorem Jobs.GroupKeeps.afterQueued (i : Nat) (a : Action) (h : Jobs.GroupKeeps j0 j) :
    Jobs.GroupKeeps j0 (j.afterQueued e i a) := by
  have rests : Jobs.GroupKeeps j0 (j.startRest e i) := by
    unfold Jobs.startRest
    split
    · exact h
    · exact h.same
  unfold Jobs.afterQueued
  split
  · unfold Jobs.withdrawOperator
    split
    · exact rests
    · split
      · exact rests.same
      · exact rests
  · exact h

/-- R69, R79: the hold that a guard group ends. -/
theorem Jobs.GroupKeeps.endHold (i : Nat) (h : Jobs.GroupKeeps j0 j) : Jobs.GroupKeeps j0 (j.endHold e .guard i) := by
  have told : ∀ {k : Jobs}, Jobs.GroupKeeps j0 k → Jobs.GroupKeeps j0 (k.tellHold e i false) := by
    intro k hk
    unfold Jobs.tellHold
    split <;> exact hk.same
  unfold Jobs.endHold
  split
  · exact h
  · have ended := told ((h.same (j' := j.updateAct i fun a => { a with hold := none, parked := none })).notice (e := e)
      (.holdEnded i HoldEnd.guard.code))
    dsimp only
    split
    · exact ended
    · exact ended.cancel ..

theorem Jobs.GroupKeeps.clearFor (i : Nat) (h : Jobs.GroupKeeps j0 j) : Jobs.GroupKeeps j0 (j.clearFor e i) := by
  unfold Jobs.clearFor
  have cleared := Jobs.GroupKeeps.foldl (fun j x => if x.isGuard then j else j.removed e x)
    (j.queue.filter (fun x => x.isFor i)) (fun x hx => by split; exacts [hx, hx.removed x])
    (h.same (j' := { j with queue := j.queue.filter (fun x => !x.isFor i) }))
  dsimp only
  refine Jobs.GroupKeeps.endHold i ?_
  split
  · exact cleared
  · exact cleared.itemsLeft

theorem Jobs.GroupKeeps.guardGroup (l : List Ask) (h : Jobs.GroupKeeps j0 j) : Jobs.GroupKeeps j0 (j.guardGroup e l) := by
  have cleared : Jobs.GroupKeeps j0 (j.clearForAll e l) :=
    Jobs.GroupKeeps.foldl _ _ (fun x hx => by cases x; exacts [hx.clearFor _, hx]) h
  unfold Jobs.guardGroup
  split
  · exact h
  · have placed := (cleared.same (j' := { j.clearForAll e l with queue := placeGroup l (j.clearForAll e l).queue })).evict
      (e := e) (placeGroup l (j.clearForAll e l).queue).length
    exact (Jobs.GroupKeeps.foldl _ _ (fun x hx => by cases x; exacts [hx.afterQueued .., hx]) placed).itemsLeft

/-! ## What the groups of an evaluation leave alone (R106 step 3) -/

/-- The guard band, the Level Record and the conditions but QUEUE_FULL are as they stood. -/
structure Jobs.BandStands (j j' : Jobs) : Prop where
  band : j'.guard.band = j.guard.band
  level : j'.level = j.level
  flags : ∀ k, k ≠ CondKind.queueFull → j'.tele.flags k = j.tele.flags k

theorem Jobs.BandStands.refl (j : Jobs) : Jobs.BandStands j j := ⟨rfl, rfl, fun _ _ => rfl⟩

theorem Jobs.BandStands.guardGroup (l : List Ask) (h : Jobs.BandStands j0 j) : Jobs.BandStands j0 (j.guardGroup e l) := by
  have hk := (Jobs.GroupKeeps.refl j).guardGroup (e := e) l
  exact ⟨(congrArg _ hk.guard).trans h.band, hk.level.trans h.level, fun k hne => (hk.flags k hne).trans (h.flags k hne)⟩

/-- The end of the re-issue wait. -/
theorem Jobs.BandStands.reissued (h : Jobs.BandStands j0 j) :
    Jobs.BandStands j0 (j.guarding (fun g => { g with reissue := false })) := ⟨h.band, h.level, h.flags⟩

theorem Jobs.BandStands.keepDemand (x : Nat × Action) (h : Jobs.BandStands j0 j) :
    Jobs.BandStands j0 (j.keepDemand e x) := by
  unfold Jobs.keepDemand
  split
  · exact h.guardGroup _
  · exact h

theorem Jobs.BandStands.keepDemands (i : Option Nat) (h : Jobs.BandStands j0 j) :
    Jobs.BandStands j0 (j.keepDemands e i) := by
  have folded : ∀ (l : List (Nat × Action)) {k : Jobs}, Jobs.BandStands j0 k →
      Jobs.BandStands j0 (l.foldl (fun j x => j.keepDemand e x) k) := by
    intro l
    induction l with
    | nil => exact id
    | cons x l ih => exact fun hk => ih (hk.keepDemand x)
  unfold Jobs.keepDemands
  split
  · exact h
  · exact folded _ h

theorem Jobs.BandStands.queueGroups (a b c : Bool) (i : Option Nat) (h : Jobs.BandStands j0 j) :
    Jobs.BandStands j0 (j.queueGroups e a b c i) := by
  unfold Jobs.queueGroups
  refine Jobs.BandStands.keepDemands i ?_
  have reissue : ∀ {k : Jobs}, Jobs.BandStands j0 k → Jobs.BandStands j0 (k.endReissue e) := by
    intro k hk
    unfold Jobs.endReissue
    split
    · exact hk.reissued.guardGroup _
    · exact hk
  refine reissue ?_
  split
  · exact h.reissued.guardGroup _
  · split
    · exact h.guardGroup _
    · exact h

/-! ## The band (R107) -/

theorem GuardBand.code_injective {b c : GuardBand} (h : b.code = c.code) : b = c := by
  cases b <;> cases c <;> cases h <;> rfl

theorem GuardBand.code_below {b : GuardBand} (h : b ≠ .normal) : b.below.code + 1 = b.code := by
  cases b with
  | normal => exact absurd rfl h
  | high | highHigh | trip => rfl

theorem GuardBand.eq_normal_of_code {b : GuardBand} (h : b.code = 0) : b = .normal := GuardBand.code_injective (c := .normal) h

/-- R107 step 4: `n` falls, enough to reach NORMAL, end at the first band that the level does not leave. -/
theorem GuardSettings.fall_spec (g : GuardSettings) (level n : Nat) (b : GuardBand) (hn : b.code ≤ n) :
    (g.fall level n b).code ≤ b.code
      ∧ (∀ c : GuardBand, (g.fall level n b).code < c.code → c.code ≤ b.code → level + g.hyst < g.boundary c)
      ∧ (g.fall level n b = .normal ∨ g.boundary (g.fall level n b) ≤ level + g.hyst) := by
  induction n generalizing b with
  | zero =>
    have hb := GuardBand.eq_normal_of_code (Nat.le_zero.mp hn)
    exact ⟨le_rfl, fun c h h' => absurd h (Nat.not_lt.mpr h'), .inl hb⟩
  | succ n ih =>
    unfold GuardSettings.fall
    split
    · next hfall =>
      obtain ⟨hne, hlevel⟩ := hfall
      have hbelow := GuardBand.code_below hne
      obtain ⟨hle, hleft, hstay⟩ := ih b.below (by omega)
      refine ⟨by omega, fun c hc hcb => ?_, hstay⟩
      by_cases heq : c.code = b.code
      · rw [GuardBand.code_injective heq]
        exact hlevel
      · exact hleft c hc (by omega)
    · next hstay =>
      refine ⟨le_rfl, fun c h h' => absurd h (Nat.not_lt.mpr h'), ?_⟩
      by_cases hb : b = .normal
      · exact .inl hb
      · exact .inr (Nat.not_lt.mp fun hlevel => hstay ⟨hb, hlevel⟩)

/-- R107 step 3: the level has reached the boundary of the highest band reached, and of none above it. -/
theorem GuardSettings.reached_spec (g : GuardSettings) (level : Nat) :
    g.boundary (g.reached level) ≤ level ∧ ∀ b : GuardBand, (g.reached level).code < b.code → level < g.boundary b := by
  unfold GuardSettings.reached
  by_cases htrip : g.trip ≤ level
  · rw [if_pos htrip]
    exact ⟨htrip, fun b hb => by cases b <;> simp [GuardBand.code] at hb⟩
  · rw [if_neg htrip]
    by_cases hhihi : g.hihi ≤ level
    · rw [if_pos hhihi]
      exact ⟨hhihi, fun b hb => by cases b <;> simp [GuardBand.code, GuardSettings.boundary] at hb ⊢; omega⟩
    · rw [if_neg hhihi]
      by_cases hhigh : g.high ≤ level
      · rw [if_pos hhigh]
        exact ⟨hhigh, fun b hb => by cases b <;> simp [GuardBand.code, GuardSettings.boundary] at hb ⊢ <;> omega⟩
      · rw [if_neg hhigh]
        exact ⟨Nat.zero_le _, fun b hb => by cases b <;> simp [GuardBand.code, GuardSettings.boundary] at hb ⊢ <;> omega⟩

/-- R107 step 3: some band above has its boundary reached exactly when the highest band reached lies above. -/
theorem GuardSettings.rises_iff (g : GuardSettings) (level : Nat) (old : GuardBand) :
    (∃ b : GuardBand, old.code < b.code ∧ g.boundary b ≤ level) ↔ old.code < (g.reached level).code := by
  obtain ⟨hreached, habove⟩ := g.reached_spec level
  refine ⟨fun ⟨b, hb, hlevel⟩ => ?_, fun h => ⟨_, h, hreached⟩⟩
  by_contra hn
  exact absurd (habove b (by omega)) (Nat.not_lt.mpr hlevel)

/-! ## The band of an evaluation (R106, R107) -/

theorem GuardRecord.drainMoves_band (e : Env) (l : LevelRecord) (b c : Bool) (g : GuardRecord) :
    ((g.bandDemands c).drainMoves e l b).band = g.band := by
  have demands : (g.bandDemands c).band = g.band := by
    unfold GuardRecord.bandDemands
    split
    · rfl
    · split <;> rfl
  unfold GuardRecord.drainMoves
  split <;> exact demands

theorem Jobs.bandStep_band (e : Env) (j : Jobs) : (j.bandStep e).guard.band
    = nextBand e.set.guard (j.level.fusion == .blind) j.guard.latch j.guard.float j.level.guard j.guard.band := by
  unfold Jobs.bandStep
  dsimp only
  split <;> exact GuardRecord.drainMoves_band ..

/-- The band derived moves neither the levels nor a condition. -/
theorem Jobs.bandStep_frame (e : Env) (j : Jobs) : (j.bandStep e).level = j.level ∧ (j.bandStep e).tele = j.tele := by
  unfold Jobs.bandStep
  dsimp only
  split <;> exact ⟨rfl, rfl⟩

/-- R108, R115: the conditions and the blind test leave the band. -/
theorem Jobs.blindTest_band (e : Env) (c : BlindCause) (j : Jobs) : (j.blindTest e c).guard.band = j.guard.band := by
  have acted : ∀ k : Jobs, (k.blindAction e).guard.band = k.guard.band := fun k =>
    congrArg _ ((Jobs.GroupKeeps.refl (k.raise e .levelBlind)).guardGroup (k.blindGroup e)).guard
  unfold Jobs.blindTest
  cases c with
  | none => rfl
  | result i => rfl
  | change was =>
    dsimp only
    split
    · split
      · rfl
      · exact acted j
    · rfl
  | start =>
    dsimp only
    split
    · exact acted j
    · rfl

theorem Jobs.guardEvaluate_band (e : Env) (c : BlindCause) (j : Jobs) : (j.guardEvaluate e c).guard.band
    = nextBand e.set.guard (j.level.fusion == .blind) j.guard.latch j.guard.float j.level.guard j.guard.band := by
  have queued := fun a b d => ((Jobs.BandStands.refl (j.bandStep e)).queueGroups (e := e) a b d c.spares).band
  have tested : ∀ a b d, ((((j.bandStep e).queueGroups e a b d c.spares).bandConditions e).blindTest e c).guard.band
      = (j.bandStep e).guard.band := fun a b d => by
    rw [Jobs.blindTest_band, ← queued a b d]
    unfold Jobs.bandConditions
    simp only [Jobs.keep_guard]
  rw [← Jobs.bandStep_band]
  unfold Jobs.guardEvaluate
  dsimp only
  split <;> exact tested ..

end Sys2Proof.Machine

open Sys2Proof Sys2Proof.Machine

/-- Settles O45, step by step of R107: the band of an evaluation is `nextBand`. -/
theorem bandFollowsLevel : Obligations.BandFollowsLevel := by
  intro e j cause s level old new blind trips rises
  have hnew : new = nextBand s (j.level.fusion == .blind) j.guard.latch j.guard.float level old := j.guardEvaluate_band e cause
  have htest : (j.guard.float == .wet || (!(j.level.fusion == .blind) && decide (s.trip ≤ level))) = true ↔ trips := by
    simp [trips, blind]
  unfold nextBand at hnew
  refine ⟨fun ht => ?_, fun ht hl => ?_, fun ht hl hb => ?_, fun ht hl hb hr => ?_, fun ht hl hb hr => ?_⟩
  · rw [hnew, if_pos (htest.mpr ht)]
  · rw [hnew, if_neg (mt htest.mp ht), if_pos hl]
  · have hblind : (j.level.fusion == .blind) = true := beq_iff_eq.mpr hb
    rw [hnew, if_neg (mt htest.mp ht), if_neg (by rw [hl]; decide), if_pos hblind]
  · rw [if_neg (mt htest.mp ht), if_neg (by rw [hl]; decide), if_neg (mt beq_iff_eq.mp hb),
      if_pos ((s.rises_iff level old).mp hr)] at hnew
    rw [hnew]
    exact s.reached_spec level
  · rw [if_neg (mt htest.mp ht), if_neg (by rw [hl]; decide), if_neg (mt beq_iff_eq.mp hb),
      if_neg (mt (s.rises_iff level old).mpr hr)] at hnew
    rw [hnew]
    exact s.fall_spec level 3 old (by cases old <;> decide)
end

section
/-!
PROOFS. The release of a trip (spec/06 R114) and the expiry of the blind start timer (R115).
The proofs are elaborated one after the other, which keeps the whole text inside the sandbox's memory.
-/

set_option Elab.async false

namespace Sys2Proof.Machine

variable {e : Env} {j : Jobs} {p : Port} {r : Request} {s : State} {bs : List Byte}

/-! ## A request's cell on a settled part (R2, R3, R32) -/

/-- The counting and the hearing of a cell move a settled part's conditions and counters, and nothing else that the blocks
write. -/
theorem State.received_jobs (hs : s.Settled) (p : Port) (bs : List Byte) :
    ∃ t c, (s.received p bs).jobs = { s.jobs with tele := t, counters := c } := by
  cases p with
  | line => exact ⟨_, _, rfl⟩
  | field =>
    have counted : ({ s with loop := { s.loop with badRun := 0 } }.tally
        (Jobs.count (fun c => { c with received1F := c.received1F + 1#32 }))).Settled := hs
    have hgood : ∃ t c, (s.goodArrival .field).jobs = { s.jobs with tele := t, counters := c } := by
      have cleared := State.work_still (f := fun e j => j.clear e .loopNoise) counted
        (Jobs.still_tele _ _ _ _ _ (Tele.flags_clear_ne _ (by decide) _)) counted.1 counted.2.1
      exact ⟨_, _, (congrArg State.jobs cleared).trans rfl⟩
    have hsettled : (s.goodArrival .field).Settled := State.work_clear counted (by decide)
    obtain ⟨t, c, hjobs⟩ := hgood
    obtain ⟨u, hu, hflags⟩ := heard_tele bs (s.goodArrival .field).part
    have hchange := State.change_still (f := heard bs) hsettled (heard_frame bs _).set
      (hu ▸ Jobs.still_tele _ (s.goodArrival .field).jobs u _ _ hflags) (by rw [hu]; rfl) (by rw [hu]; rfl)
    refine ⟨u, c, ?_⟩
    show ((s.goodArrival .field).change (heard bs)).jobs = _
    rw [hchange, State.withPart_jobs, hu]
    show { (s.goodArrival .field).jobs with tele := u } = _
    rw [hjobs]

/-! ## The checks of a RELEASE_TRIP (R173) -/

theorem firstFailure_releaseTrip (e : Env) (j : Jobs) (hk : r.kind = 11) (hs : r.source = .local) :
    firstFailure e j r = none := by
  simp [firstFailure, hk, hs, within, localKind, idOk, indexOk, busyKind, isGuarded]

theorem carryOut_releaseTrip (hk : r.kind = 11) : s.carryOut r = s.releaseTrip r := by
  unfold State.carryOut
  rw [hk]
  rfl

theorem FloatState.letsRelease_iff (f : FloatState) : f.letsRelease = true ↔ f = .dry ∨ f = .none := by
  cases f <;> simp [FloatState.letsRelease]

theorem Jobs.releaseSafe_iff (e : Env) (j : Jobs) : j.releaseSafe e = true ↔
    j.level.fusion ≠ .blind ∧ j.level.guard < e.set.guard.high ∧ (j.guard.float = .dry ∨ j.guard.float = .none) := by
  simp [Jobs.releaseSafe, FloatState.letsRelease_iff, and_assoc]

theorem Jobs.releaseTrip_clear (h : j.guard.latch = false) : j.releaseTrip e = (j, true) := by
  unfold Jobs.releaseTrip
  rw [h]
  rfl

theorem Jobs.releaseTrip_safe (h : j.guard.latch = true) (hs : j.releaseSafe e = true) :
    j.releaseTrip e = (j.release e, true) := by
  unfold Jobs.releaseTrip
  rw [h, hs]
  rfl

theorem Jobs.releaseTrip_unsafe (h : j.guard.latch = true) (hs : j.releaseSafe e ≠ true) :
    j.releaseTrip e = (j, false) := by
  unfold Jobs.releaseTrip
  rw [h, Bool.eq_false_of_not_eq_true hs]
  rfl

/-! ## What the release leaves (R114) -/

/-- R107: below HIGH_MM, the lowest boundary, the band is NORMAL. -/
theorem GuardSettings.reached_normal {g : GuardSettings} {level : Nat} (h : level < g.high) (h1 : g.high < g.hihi)
    (h2 : g.hihi < g.trip) : g.reached level = .normal := by
  unfold GuardSettings.reached
  rw [if_neg (by omega), if_neg (by omega), if_neg (by omega)]

/-- The released record, before the conditions and the drain's group follow. -/
def Jobs.unlatched (e : Env) (j : Jobs) : Jobs :=
  (j.guarding (fun g =>
    { g with latch := false, pumpDemand := false, inletDemand := false, drainDemand := none,
             band := e.set.guard.reached j.level.guard })).askWord

/-- The conditions of R108 cleared, as the release clears them. -/
def Jobs.overflowCleared (e : Env) (j : Jobs) : Jobs :=
  ((j.clear e .overflowTrip).clear e .overflowInhibit).clear e .overflowNear

theorem Jobs.release_eq (e : Env) (j : Jobs) :
    ∃ l, j.release e = (((j.unlatched e).overflowCleared e).guardGroup e l).post .fillEval := ⟨_, rfl⟩

theorem Jobs.clear_inactive_of (e : Env) {k : CondKind} (h : j.tele.conds.length = 22)
    (hl : ¬ (k = .overflowTrip ∧ j.guard.latch = true)) : ((j.clear e k).tele.flags k).1 = false :=
  congrArg Prod.fst (Tele.flags_clear_self (teleEnv e j) k j.tele h hl)

/-- R150: with the latch clear, the three clears leave none of the three kinds active. -/
theorem Jobs.overflowCleared_inactive (e : Env) (h : j.tele.conds.length = 22) (hl : j.guard.latch = false) :
    ((j.overflowCleared e).tele.flags .overflowTrip).1 = false ∧ ((j.overflowCleared e).tele.flags .overflowInhibit).1 = false
      ∧ ((j.overflowCleared e).tele.flags .overflowNear).1 = false := by
  have clear_conds : ∀ (k : CondKind) (i : Jobs), (i.clear e k).tele.conds.length = i.tele.conds.length :=
    fun _ _ => Tele.clear_conds_length ..
  have others : ∀ {k k' : CondKind} (i : Jobs), k' ≠ k → (i.clear e k).tele.flags k' = i.tele.flags k' :=
    fun _ hne => Tele.flags_clear_ne _ hne _
  unfold Jobs.overflowCleared
  refine ⟨?_, ?_, ?_⟩
  · rw [others _ (by decide), others _ (by decide)]
    exact Jobs.clear_inactive_of e h (by simp [hl])
  · rw [others _ (by decide)]
    exact Jobs.clear_inactive_of e ((clear_conds ..).trans h) (by simp)
  · exact Jobs.clear_inactive_of e (((clear_conds ..).trans (clear_conds ..)).trans h) (by simp)

/-- The drain's group and the telling of the Fill controller leave the guard record, the settings store and the conditions of
R108 as they were cleared. -/
theorem Jobs.release_keeps (e : Env) (j : Jobs) : Jobs.GroupKeeps ((j.unlatched e).overflowCleared e) (j.release e) := by
  obtain ⟨l, hl⟩ := j.release_eq e
  rw [hl]
  exact ((Jobs.GroupKeeps.refl _).guardGroup l).same

/-! ## The blind start timer (R115) -/

theorem Jobs.blindStartExpiry_stopped (h : j.guard.blindStart = none) : j.blindStartExpiry e = j := by
  unfold Jobs.blindStartExpiry
  rw [h]
  rfl

theorem Jobs.blindStartExpiry_running (h : j.guard.blindStart ≠ none) :
    j.blindStartExpiry e = (j.guarding (fun g => { g with blindStart := none })).guardEvaluate e .start :=
  if_neg (by simpa using h)

/-- The expiry is what tellings do, once the timer has stopped. -/
theorem Jobs.moves_blindStartExpiry (h : j.guard.blindStart ≠ none) :
    Jobs.Moves false e (j.guarding (fun g => { g with blindStart := none })) (j.blindStartExpiry e) := by
  rw [Jobs.blindStartExpiry_running h]
  exact Jobs.Moves.refl.guardEvaluate _

/-- R108: the band conditions leave the others. -/
theorem Jobs.bandConditions_flags (e : Env) (j : Jobs) {k : CondKind} (hn : k ≠ .overflowNear) (hi : k ≠ .overflowInhibit)
    (ht : k ≠ .overflowTrip) : (j.bandConditions e).tele.flags k = j.tele.flags k := by
  have kept : ∀ {c : CondKind} (b : Bool) (i : Jobs), k ≠ c → (i.keep e c b).tele.flags k = i.tele.flags k := by
    intro c b i hc
    unfold Jobs.keep
    split
    · exact Tele.flags_raise_ne _ hc _
    · exact Tele.flags_clear_ne _ hc _
  exact (kept _ _ ht).trans ((kept _ _ hi).trans (kept _ _ hn))

/-- R115: the blind test at the expiry. -/
theorem Jobs.blindTest_start (e : Env) (h : j.tele.conds.length = 22) :
    (j.level.fusion = .blind → (j.blindTest e .start).active .levelBlind = true)
      ∧ (j.level.fusion ≠ .blind → j.blindTest e .start = j) := by
  refine ⟨fun hb => ?_, fun hb => ?_⟩
  · unfold Jobs.blindTest
    dsimp only
    split
    · have grouped := ((Jobs.GroupKeeps.refl (j.raise e .levelBlind)).guardGroup (e := e) (j.blindGroup e)).flags .levelBlind
        (by decide)
      exact (congrArg Prod.fst grouped).trans (Jobs.raise_active e .levelBlind h)
    · next hn => simpa [hb] using hn
  · unfold Jobs.blindTest
    exact if_neg (by simp [hb])

theorem Jobs.bandConditions_level (e : Env) (j : Jobs) : (j.bandConditions e).level = j.level := by
  have kept : ∀ (c : CondKind) (b : Bool) (i : Jobs), (i.keep e c b).level = i.level := by
    intro c b i
    unfold Jobs.keep
    split <;> rfl
  exact (kept ..).trans ((kept ..).trans (kept ..))

/-- R106: the evaluation of the expiry ends in the blind test. -/
theorem Jobs.guardEvaluate_start_tele (e : Env) (j : Jobs) : ∃ a b c, (j.guardEvaluate e .start).tele
    = ((((j.bandStep e).queueGroups e a b c none).bandConditions e).blindTest e .start).tele := by
  unfold Jobs.guardEvaluate
  dsimp only [BlindCause.spares]
  split <;> exact ⟨_, _, _, rfl⟩

/-- R106, R115: the blind test of the expiry is made on a part whose levels and LEVEL_BLIND the earlier steps left as they
were. -/
theorem Jobs.guardEvaluate_start (e : Env) (j : Jobs) : ∃ k : Jobs, k.level = j.level
    ∧ k.tele.flags .levelBlind = j.tele.flags .levelBlind ∧ k.tele.conds.length = j.tele.conds.length
    ∧ (j.guardEvaluate e .start).tele = (k.blindTest e .start).tele := by
  obtain ⟨hlevel, htele⟩ := j.bandStep_frame e
  obtain ⟨a, b, c, heq⟩ := j.guardEvaluate_start_tele e
  have stands := (Jobs.BandStands.refl (j.bandStep e)).queueGroups (e := e) a b c none
  have moves := ((Jobs.Moves.refl (dry := false) (e := e) (j0 := j)).bandStep.queueGroups a b c none).bandConditions
  refine ⟨_, ?_, ?_, moves.conds, heq⟩
  · exact (Jobs.bandConditions_level ..).trans (stands.level.trans hlevel)
  · rw [Jobs.bandConditions_flags e _ (by decide) (by decide) (by decide), stands.flags _ (by decide), htele]

end Sys2Proof.Machine

open Sys2Proof Sys2Proof.Machine

/-- Settles O46: the request passes every check, and its cell moves nothing that the release reads (`State.received_jobs`). -/
theorem releaseNeedsSafety : Obligations.ReleaseNeedsSafety := by
  refine ⟨fun p bs r s hs hreq hk hsrc => ?_, fun e j hconds h0 h1 h2 => ?_⟩
  · intro s1 safe
    have hsettled := State.received_settled hs.2 p bs
    have hset := (s.received_frame p bs).set
    have hexec := exec_request (c := .releaseTrip p bs) rfl hs.1 hreq (firstFailure_releaseTrip _ _ hk hsrc)
    rw [State.settled_ready hs.2] at hset hexec
    rw [carryOut_releaseTrip hk] at hexec
    obtain ⟨t, c, hjobs⟩ := State.received_jobs hs.2 p bs
    have hlatch : s1.jobs.guard.latch = s.jobs.guard.latch := by rw [hjobs]
    have hsafe : s1.jobs.releaseSafe s1.env = true ↔ safe := by
      rw [Jobs.releaseSafe_iff, hset, hjobs]
    refine ⟨fun hl => ?_, fun hl hn => ?_, fun hl hn => ?_⟩
    · have htrip := Jobs.releaseTrip_clear (e := s1.env) (hlatch.trans hl)
      rw [hexec, State.releaseTrip, htrip,
        State.work_idle (f := fun e j => (j.releaseTrip e).1) hsettled (congrArg Prod.fst htrip)]
      rfl
    · have htrip := Jobs.releaseTrip_unsafe (hlatch.trans hl) (mt hsafe.mp hn)
      rw [hexec, State.releaseTrip, htrip,
        State.work_idle (f := fun e j => (j.releaseTrip e).1) hsettled (congrArg Prod.fst htrip)]
      rfl
    · have htrip := Jobs.releaseTrip_safe (hlatch.trans hl) (hsafe.mpr hn)
      rw [hexec, State.releaseTrip, htrip,
        State.work_congr (f := fun e j => (j.releaseTrip e).1) (g := fun e j => j.release e) (congrArg Prod.fst htrip)]
      rfl
  · have hkeeps := j.release_keeps e
    obtain ⟨htrip, hinhibit, hnear⟩ := Jobs.overflowCleared_inactive (j := j.unlatched e) e hconds rfl
    refine ⟨hkeeps.guard.trans ?_, hkeeps.store, ?_, ?_, ?_⟩
    · rw [← GuardSettings.reached_normal h0 h1 h2]
      rfl
    · exact (congrArg Prod.fst (hkeeps.flags .overflowTrip (by decide))).trans htrip
    · exact (congrArg Prod.fst (hkeeps.flags .overflowInhibit (by decide))).trans hinhibit
    · exact (congrArg Prod.fst (hkeeps.flags .overflowNear (by decide))).trans hnear

/-- Settles O47: the evaluation at the expiry ends in the blind test (`Jobs.guardEvaluate_start`), and nothing that follows starts
the timer again. -/
theorem blindStartRaisesLevelBlind : Obligations.BlindStartRaisesLevelBlind := by
  refine ⟨fun s hs => ?_, fun e j hconds hrun => ?_⟩
  · have hexec : exec .blindStartTimerExpiry s = .next (s.work Jobs.blindStartExpiry).creditWatch :=
      exec_ready hs (by decide) (by decide)
    refine ⟨fun hn => ?_, fun hr => ⟨_, hexec, rfl, ?_, rfl, rfl, ?_, ?_⟩⟩
    · rw [hexec, State.work_idle hs.2 (Jobs.blindStartExpiry_stopped hn)]
    · exact (Jobs.moves_complete ..).keeps.blindStart ((Jobs.moves_blindStartExpiry hr).keeps.blindStart rfl)
    · exact congrArg Hull.flight ((State.hull_work ..).trans (Jobs.moves_blindStartExpiry hr).hull_eq)
    · exact Jobs.hull_act ((State.hull_work ..).trans (Jobs.moves_blindStartExpiry hr).hull_eq)
  · rw [Jobs.blindStartExpiry_running hrun]
    obtain ⟨k, hlevel, hflags, hlen, htele⟩ := (j.guarding (fun g => { g with blindStart := none })).guardEvaluate_start e
    obtain ⟨hblind, hknown⟩ := Jobs.blindTest_start (j := k) e (hlen.trans hconds)
    refine ⟨fun hb => ?_, fun hb => ?_⟩
    · exact (congrArg (fun t => (Tele.cond t .levelBlind).active) htele).trans (hblind ((congrArg _ hlevel).trans hb))
    · rw [htele, hknown (fun h => hb ((congrArg LevelRecord.fusion hlevel).symm.trans h))]
      exact hflags
end

section
/-!
PROOFS. The settings store (spec/06 R113, spec/11 R177): what a store and a latch word write begin and leave, and what waits for
them.
The proofs are elaborated one after the other, which keeps the whole text inside the sandbox's memory.
-/

set_option Elab.async false

namespace Sys2Proof.Machine

variable {e : Env} {j : Jobs} {p : Port} {r : Request} {s t : State} {bs : List Byte} {x : Store} {live : Settings} {latch : Bool}

/-! ## What an idle store begins (R113, R177) -/

/-- The word write asked for is the next to begin: no STORE that waits has let a write go already. -/
abbrev Store.WriteNext (x : Store) : Prop := x.writeAsked = true ∧ ¬ (x.waiting = true ∧ x.further = true)

theorem Store.beginNext_busy (h : ¬ (x.storing = none ∧ x.writing = none)) : x.beginNext live latch = x := by
  unfold Store.beginNext
  refine if_pos ?_
  simpa [Option.isSome_iff_ne_none, ← not_and_or] using h

theorem Store.beginNext_write (hs : x.storing = none) (hw : x.writing = none) (h : x.WriteNext) :
    x.beginNext live latch = x.beginWrite latch := by
  unfold Store.beginNext
  rw [if_neg (by simp [hs, hw]), if_pos (by simpa [Store.WriteNext, ← Bool.not_eq_true, imp_iff_not_or] using h)]

theorem Store.beginNext_store (hs : x.storing = none) (hw : x.writing = none) (h : ¬ x.WriteNext) (hwait : x.waiting = true) :
    x.beginNext live latch = x.begin live := by
  unfold Store.beginNext
  rw [if_neg (by simp [hs, hw]), if_neg (by simpa [Store.WriteNext] using h), if_pos hwait]

theorem Store.beginNext_idle (hask : x.writeAsked = false) (hwait : x.waiting = false) : x.beginNext live latch = x := by
  unfold Store.beginNext
  split
  · rfl
  · rw [if_neg (by simp [hask]), if_neg (by simp [hwait])]

/-! ## The ends of a write and of a store -/

theorem Store.wordWritten_none (h : x.writing = none) : x.wordWritten live latch = x := by
  unfold Store.wordWritten
  rw [h]

theorem Store.wordWritten_some {w : Bool} (h : x.writing = some w) :
    x.wordWritten live latch = ({ x with word := w, writing := none } : Store).beginNext live latch := by
  unfold Store.wordWritten
  rw [h]

theorem Store.completed_some {image : Settings} (h : x.storing = some image) : x.completed latch
    = ({ x with image := some image, complete := true, storing := none, asker := none } : Store).beginNext image latch := by
  unfold Store.completed
  rw [h]

/-- R177: with no STORE waiting, the end of a store begins the word write asked for meanwhile, and nothing else. -/
theorem Store.completed_unwaited {image : Settings} (h : x.storing = some image) (hwait : x.waiting = false)
    (hask : x.writeAsked = true → x.writing = none) :
    let ended : Store := { x with image := some image, complete := true, storing := none, asker := none }
    x.completed latch = if x.writeAsked = true then ended.beginWrite latch else ended := by
  intro ended
  rw [Store.completed_some h]
  split
  · next hw => exact Store.beginNext_write rfl (hask hw) ⟨hw, by simp [hwait]⟩
  · next hw => exact Store.beginNext_idle (Bool.eq_false_of_not_eq_true hw) hwait

/-! ## The commands of the store -/

/-- The store of the part became `y`. -/
abbrev State.withStore (y : Store) (s : State) : State := { s with jobs := { s.jobs with store := y } }

theorem State.wordCompletes_eq (s : State) :
    s.wordCompletes = s.withStore (s.jobs.store.wordWritten s.env.set s.jobs.guard.latch) := rfl

theorem State.deferredStore_idle (h : s.jobs.store.waiting = false) : s.deferredStore = s := if_neg (by simp [h])

theorem State.deferredWrite_idle (h : s.jobs.store.writeAsked = false) : s.deferredWrite = s := if_neg (by simp [h])

theorem State.deferredStore_waiting (h : s.jobs.store.waiting = true) :
    s.deferredStore = s.withStore (s.jobs.store.beginNext s.env.set s.jobs.guard.latch) := if_pos h

theorem State.deferredWrite_asked (h : s.jobs.store.writeAsked = true) :
    s.deferredWrite = s.withStore (s.jobs.store.beginNext s.env.set s.jobs.guard.latch) := if_pos h

theorem State.deferredStore_busy (h : ¬ (s.jobs.store.storing = none ∧ s.jobs.store.writing = none)) : s.deferredStore = s := by
  cases hw : s.jobs.store.waiting with
  | false => exact State.deferredStore_idle hw
  | true => rw [State.deferredStore_waiting hw, Store.beginNext_busy h]

theorem State.deferredWrite_busy (h : ¬ (s.jobs.store.storing = none ∧ s.jobs.store.writing = none)) : s.deferredWrite = s := by
  cases hw : s.jobs.store.writeAsked with
  | false => exact State.deferredWrite_idle hw
  | true => rw [State.deferredWrite_asked hw, Store.beginNext_busy h]

/-! ## The end of a store (R177) -/

theorem State.storeCompletes_idle (h : s.jobs.store.storing = none) : s.storeCompletes = s := if_neg (by simp [h])

/-- Of the jobs, the answer moves at most the counter of displaced cells. -/
theorem State.answerStore_jobs (s : State) : ∃ n, s.answerStore.jobs =
    { s.jobs with counters := { s.jobs.counters with displaced7 := n } } := by
  unfold State.answerStore
  split
  · exact ⟨s.jobs.counters.displaced7, rfl⟩
  · next a _ =>
    have counted : ∀ b : Bool, ∃ n, s.jobs.countDisplaced b =
        { s.jobs with counters := { s.jobs.counters with displaced7 := n } } := by
      intro b
      cases b <;> exact ⟨_, rfl⟩
    exact counted _

theorem State.answerStore_env (s : State) : s.answerStore.env = s.env := by
  unfold State.answerStore
  split <;> rfl

theorem State.answerStore_queue {a : Asker} (h : s.jobs.store.asker = some a) : s.answerStore.loop.queueOf a.port
    = s.loop.offered a.port (answerCell s.env.set.general.ownAddress a.address a.b0 a.b1 a.tag .done []) := by
  unfold State.answerStore
  rw [h]
  dsimp only [State.offer]
  cases a.port <;> rfl

/-- The part once the STORE in flight has been answered and counted. -/
def State.storeCounted (s : State) : State :=
  s.answerStore.tally (Jobs.count (fun c => { c with stores14 := c.stores14 + 1#32 }))

theorem State.storeCounted_jobs (s : State) : ∃ n, s.storeCounted.jobs =
    { s.jobs with counters := { s.jobs.counters with displaced7 := n, stores14 := s.jobs.counters.stores14 + 1#32 } } := by
  obtain ⟨n, hn⟩ := s.answerStore_jobs
  refine ⟨n, ?_⟩
  unfold State.storeCounted State.tally Jobs.count
  rw [hn]

theorem State.storeCounted_settled (hs : s.Settled) : s.storeCounted.Settled := by
  obtain ⟨n, hn⟩ := s.storeCounted_jobs
  have henv : s.storeCounted.env = s.env := s.answerStore_env
  unfold State.Settled
  rw [hn, henv]
  exact hs

/-- On a settled part, the clearing of SETTINGS_LOST causes nothing else. -/
theorem State.storeCompletes_storing (hs : s.Settled) (h : s.jobs.store.storing ≠ none) : s.storeCompletes =
    { s.storeCounted with
      jobs := (s.storeCounted.jobs.clear s.storeCounted.env .settingsLost).stored (Store.completed s.jobs.guard.latch) } := by
  have hsettled := State.storeCounted_settled hs
  have hcleared := State.work_still (f := fun e j => j.clear e .settingsLost) hsettled
    (Jobs.still_tele _ _ _ _ _ (Tele.flags_clear_ne _ (by decide) _)) hsettled.1 hsettled.2.1
  obtain ⟨n, hn⟩ := s.storeCounted_jobs
  have hguard : s.storeCounted.jobs.guard.latch = s.jobs.guard.latch := by rw [hn]
  unfold State.storeCompletes
  rw [if_pos (by simpa [Option.isSome_iff_ne_none] using h)]
  show State.tally _ (s.storeCounted.work _) = _
  rw [hcleared, ← hguard]
  rfl

/-! ## A STORE request (R173, R177) -/

theorem firstFailure_store (hk : r.kind = 6) (hs : j.store.storing = none) (hw : j.store.waiting = false) :
    firstFailure e j r = none := by
  simp [firstFailure, hk, hs, hw, within, localKind, idOk, indexOk, busyKind, isGuarded, Store.busy]

theorem carryOut_store (hk : r.kind = 6) : s.carryOut r = s.work (fun e j => j.takeStore e.set r) := by
  unfold State.carryOut
  rw [hk]
  rfl

/-- The store as a STORE finds it, with the one that asks. -/
def Store.askedBy (r : Request) (x : Store) : Store :=
  { x with asker := some ⟨r.port, r.address, r.header.b0.toNat, r.header.b1.toNat, r.header.field3⟩ }

theorem Jobs.takeStore_begins (h : j.store.writing = none) :
    j.takeStore live r = { j with store := (j.store.askedBy r).begin live } := by
  unfold Jobs.takeStore Jobs.stored
  dsimp only
  rw [if_neg (by simp [h])]
  rfl

theorem Jobs.takeStore_waits (h : j.store.writing ≠ none) :
    j.takeStore live r = { j with store := { j.store.askedBy r with waiting := true } } := by
  unfold Jobs.takeStore Jobs.stored
  dsimp only
  rw [if_pos (by simpa [Option.isSome_iff_ne_none] using h)]
  rfl

/-- Only the store moves, and nobody is told of it. -/
theorem State.work_takeStore (hs : s.Settled) :
    s.work (fun e j => j.takeStore e.set r) = { s with jobs := s.jobs.takeStore s.env.set r } :=
  State.work_still (f := fun e j => j.takeStore e.set r) hs ⟨rfl, fun _ => rfl, rfl, rfl⟩ hs.1 hs.2.1

/-- A STORE that passes its checks is taken once its cell has been counted and heard. -/
theorem exec_store (hs : s.Ready) (hreq : s.Requested p bs r) (hk : r.kind = 6) (hstore : s.jobs.store.storing = none)
    (hwait : s.jobs.store.waiting = false) : exec (.store p bs) s
      = .next ({ s.received p bs with jobs := (s.received p bs).jobs.takeStore s.env.set r } : State).creditWatch := by
  obtain ⟨t, c, hjobs⟩ := State.received_jobs hs.2 p bs
  have hset := (s.received_frame p bs).set
  have hexec := exec_request (c := .store p bs) rfl hs.1 hreq
  rw [State.settled_ready hs.2] at hset hexec
  rw [hexec (firstFailure_store hk (by rw [hjobs]; exact hstore) (by rw [hjobs]; exact hwait)), carryOut_store hk,
    State.work_takeStore (State.received_settled hs.2 p bs), hset]

end Sys2Proof.Machine

open Sys2Proof Sys2Proof.Machine

/-- Settles O59: the request is `exec_store`, the end of a store `State.storeCompletes_storing` with
`Store.completed_unwaited`, and the other rows are what `Store.beginNext` makes of the store they find. -/
theorem storeCopiesSettings : Obligations.StoreCopiesSettings := by
  refine ⟨fun p bs r s hs hreq hk hstoring hwaiting => ?_, fun s hs => ?_⟩
  · intro s1 asked became
    obtain ⟨t, c, hjobs⟩ := State.received_jobs hs.2 p bs
    have hstore : (s.received p bs).jobs.store = s.jobs.store := by rw [hjobs]
    have hasked : (s.received p bs).jobs.store.askedBy r = asked := by
      rw [hstore, Store.askedBy, requestOf_port hreq.2.2.2]
    have hexec := exec_store hs hreq hk hstoring hwaiting
    refine ⟨fun hw => ?_, fun hw => ?_⟩
    · rw [hexec, Jobs.takeStore_begins (hstore ▸ hw), hasked]
      rfl
    · rw [hexec, Jobs.takeStore_waits (hstore ▸ hw), hasked]
  · intro x became idle writes stores writeNext
    have hcompletion : exec .storeCompletion s = .next s.storeCompletes.creditWatch := exec_ready hs (by decide) (by decide)
    have hword : exec .latchWordWriteCompletion s = .next s.wordCompletes.creditWatch := exec_ready hs (by decide) (by decide)
    have hwrite : exec .latchWordWriteDeferred s = .next s.deferredWrite.creditWatch := exec_ready hs (by decide) (by decide)
    have hstore : exec .deferredStoreBegin s = .next s.deferredStore.creditWatch := exec_ready hs (by decide) (by decide)
    rw [hcompletion, hword, hwrite, hstore]
    refine ⟨fun h => ?_, fun image h hwait hask => ?_, fun h => ?_, fun w h hnone => ?_, fun h => ?_, fun h => ?_,
      fun hidle hnext => ?_, fun hidle hask hnext => ?_, fun hidle hwait hnext => ?_, fun hidle hwait hnext => ?_,
      fun hbusy => ?_⟩
    · rw [State.storeCompletes_idle h]
    · intro ended
      obtain ⟨n, hn⟩ := s.storeCounted_jobs
      have hends := State.storeCompletes_storing hs.2 (show s.jobs.store.storing ≠ none from by rw [h]; exact nofun)
      refine ⟨_, rfl, ?_, ?_, ?_, ?_, fun a ha => ?_⟩
      · exact (congrArg (fun u => u.jobs.store) hends).trans
          ((congrArg (fun i => (Jobs.store i).completed s.jobs.guard.latch) hn).trans (Store.completed_unwaited h hwait hask))
      · exact (congrArg (fun u => u.jobs.active .settingsLost) hends).trans (Jobs.clear_active _ (by decide) _)
      · exact (congrArg State.env hends).trans s.answerStore_env
      · exact (congrArg (fun u => u.jobs.counters.stores14) hends).trans (congrArg (fun i => (Jobs.counters i).stores14) hn)
      · rw [State.creditWatch_queueOf, hends]
        exact State.answerStore_queue ha
    · rw [State.wordCompletes_eq, Store.wordWritten_none h]
    · intro ended
      rw [State.wordCompletes_eq, Store.wordWritten_some h]
      refine ⟨fun hask hwait => ?_, fun hnext => ?_, fun hnext hwait => ?_⟩
      · rw [Store.beginNext_idle (x := ended) hask hwait]
      · rw [Store.beginNext_write (x := ended) hnone rfl hnext]
        rfl
      · rw [Store.beginNext_store (x := ended) hnone rfl hnext hwait]
        rfl
    · rw [State.deferredWrite_idle h]
    · rw [State.deferredStore_idle h]
    · rw [State.deferredWrite_asked hnext.1, Store.beginNext_write hidle.1 hidle.2 hnext]
      rfl
    · have hwait : x.waiting = true := (not_not.mp (not_and.mp hnext hask)).1
      rw [State.deferredWrite_asked hask, Store.beginNext_store hidle.1 hidle.2 hnext hwait]
      rfl
    · rw [State.deferredStore_waiting hwait, Store.beginNext_write hidle.1 hidle.2 hnext]
      rfl
    · rw [State.deferredStore_waiting hwait, Store.beginNext_store hidle.1 hidle.2 hnext hwait]
      rfl
    · rw [State.deferredWrite_busy hbusy, State.deferredStore_busy hbusy]
      exact ⟨rfl, rfl⟩
end

section
/-!
PROOFS. The heater curves (spec/07 R126, R127): where a STAGE segment moves and what the LINEAR duty is between two boundaries.
-/

namespace Sys2Proof.Machine

variable {s : ZoneSettings} {t : Int} {z : Zone} {held k : Nat}

/-! ## STAGE (R126) -/

/-- R126: the raw segment is the one whose range holds the temperature. -/
theorem ZoneSettings.rawSegment_holds (s : ZoneSettings) (t : Int) :
    s.rawSegment t ≤ 4 ∧ (s.rawSegment t < 4 → s.lower (s.rawSegment t) ≤ t)
      ∧ (0 < s.rawSegment t → t < s.lower (s.rawSegment t - 1)) := by
  unfold ZoneSettings.rawSegment
  split_ifs <;> simp [ZoneSettings.lower] <;> omega

theorem ZoneSettings.segment_colder (h : held ≤ s.rawSegment t) : s.segment t (some held) = s.rawSegment t := if_pos h

/-- R126: from a held segment colder than the raw one, the search runs over the warmer segments, the warmest first. -/
theorem ZoneSettings.segment_search (h : s.rawSegment t < held) : s.segment t (some held) =
    ((List.range held).find? (fun m => decide (s.rawSegment t ≤ m ∧ s.lower m + (s.h : Int) ≤ t))).getD held := by
  unfold ZoneSettings.segment
  dsimp only
  rw [if_neg (Nat.not_le.mpr h), List.find?_filter]
  simp only [decide_eq_true_eq]

theorem ZoneSettings.segment_warmer (hk : s.rawSegment t ≤ k) (hheld : k < held) (hreached : s.lower k + (s.h : Int) ≤ t)
    (hfirst : ∀ m < k, s.rawSegment t ≤ m → t < s.lower m + (s.h : Int)) : s.segment t (some held) = k := by
  have hfound := (List.find?_range_eq_some (n := held) (i := k)
    (p := fun m => decide (s.rawSegment t ≤ m ∧ s.lower m + (s.h : Int) ≤ t))).mpr
    ⟨decide_eq_true ⟨hk, hreached⟩, List.mem_range.mpr hheld, fun m hm => by simpa [or_iff_not_imp_left] using hfirst m hm⟩
  rw [ZoneSettings.segment_search (hk.trans_lt hheld), hfound, Option.getD_some]

theorem ZoneSettings.segment_stays (h : s.rawSegment t < held)
    (hnone : ∀ m < held, s.rawSegment t ≤ m → t < s.lower m + (s.h : Int)) : s.segment t (some held) = held := by
  have hfound := List.find?_eq_none (l := List.range held)
    (p := fun m => decide (s.rawSegment t ≤ m ∧ s.lower m + (s.h : Int) ≤ t)) |>.mpr
    fun m hm => by simpa [or_iff_not_imp_left] using hnone m (List.mem_range.mp hm)
  rw [ZoneSettings.segment_search h, hfound, Option.getD_none]

theorem Zone.curveAt_stage (h : s.mode = .stage) : z.curveAt s t =
    { z with segment := some (s.segment t z.segment), curve := s.duty (s.segment t z.segment) } := by
  unfold Zone.curveAt
  rw [h]

/-! ## LINEAR (R127) -/

/-- R127: between its boundaries the interpolation stays at or above 0, so the duty is the rule's figure itself. -/
theorem between_eq {upper lower : Int} {warm cold : Nat} (hl : lower ≤ t) (hu : t < upper) :
    (between t upper lower warm cold : Int)
      = warm + Int.tdiv ((upper - t) * ((cold : Int) - warm)) (upper - lower) := by
  refine Int.toNat_of_nonneg ?_
  have hwidth : 0 < upper - lower := by omega
  have hlow : -(warm : Int) * (upper - lower) ≤ (upper - t) * ((cold : Int) - warm) := by
    nlinarith [mul_nonneg (show 0 ≤ upper - t by omega) (Int.natCast_nonneg cold),
      mul_nonneg (show 0 ≤ t - lower by omega) (Int.natCast_nonneg warm)]
  have hquot := Int.le_tdiv_of_mul_le hwidth hlow
  omega

/-- R119: the boundaries fall, the warmest first. -/
abbrev ZoneSettings.Falling (s : ZoneSettings) : Prop := s.b2 < s.b1 ∧ s.b3 < s.b2 ∧ s.b4 < s.b3

theorem ZoneSettings.computed_warmest (h : s.b1 ≤ t) : s.computed t = s.d0 := if_pos h

theorem ZoneSettings.computed_coldest (hf : s.Falling) (h : t < s.b4) : s.computed t = s.d4 := by
  unfold ZoneSettings.computed
  rw [if_neg (by omega), if_neg (by omega), if_neg (by omega), if_neg (by omega)]

theorem ZoneSettings.computed_range (hf : s.Falling) (h1 : 1 ≤ k) (h3 : k ≤ 3) (hl : s.lower k ≤ t)
    (hu : t < s.lower (k - 1)) :
    s.computed t = between t (s.lower (k - 1)) (s.lower k) (s.duty k) (s.duty (k + 1)) := by
  unfold ZoneSettings.computed
  obtain rfl | rfl | rfl : k = 1 ∨ k = 2 ∨ k = 3 := by omega
  · exact (if_neg (not_le.mpr hu)).trans (if_pos hl)
  · change t < s.b2 at hu
    rw [if_neg (by omega), if_neg (by omega)]
    exact if_pos hl
  · change t < s.b3 at hu
    rw [if_neg (by omega), if_neg (by omega), if_neg (by omega)]
    exact if_pos hl

theorem ZoneSettings.computed_between (hf : s.Falling) (h1 : 1 ≤ k) (h3 : k ≤ 3) (hl : s.lower k ≤ t)
    (hu : t < s.lower (k - 1)) : (s.computed t : Int) = s.duty k
      + Int.tdiv ((s.lower (k - 1) - t) * ((s.duty (k + 1) : Int) - s.duty k)) (s.lower (k - 1) - s.lower k) :=
  (congrArg Int.ofNat (ZoneSettings.computed_range hf h1 h3 hl hu)).trans (between_eq hl hu)

theorem Zone.curveAt_unanchored (h : s.mode = .linear) (ha : z.anchor = none) :
    z.curveAt s t = { z with curve := s.computed t, anchor := some t } := by
  unfold Zone.curveAt
  rw [h]
  dsimp only
  rw [ha]

/-- R127: an anchored curve duty follows the computed duty upward at once, and downward past the anchor plus H. -/
theorem Zone.curveAt_anchored {a : Int} (h : s.mode = .linear) (ha : z.anchor = some a) : z.curveAt s t =
    if z.curve < s.computed t ∨ (s.computed t < z.curve ∧ a + (s.h : Int) ≤ t) then
      { z with curve := s.computed t, anchor := some t }
    else z := by
  unfold Zone.curveAt
  rw [h]
  dsimp only
  rw [ha]
  dsimp only
  by_cases hup : z.curve < s.computed t
  · rw [if_pos hup, if_pos (.inl hup)]
  · simp only [hup, false_or, if_false]

end Sys2Proof.Machine

open Sys2Proof Sys2Proof.Machine

/-- Settles O49: the STAGE segment by `ZoneSettings.segment_warmer` and its neighbours, the LINEAR duty by
`ZoneSettings.computed_between`, and the anchor by `Zone.curveAt_anchored`. -/
theorem curveFollowsTemperature : Obligations.CurveFollowsTemperature := by
  intro s t z h12 h23 h34 raw z'
  refine ⟨s.rawSegment_holds t, fun hm => ?stage, fun hm => ?linear⟩
  case stage =>
    have hz : z' = _ := Zone.curveAt_stage hm
    refine ⟨s.segment t z.segment, by rw [hz], by rw [hz], by rw [hz], fun h => by rw [h]; rfl, fun held _ h => ?_⟩
    rw [h]
    exact ⟨ZoneSettings.segment_colder, fun k hwarm =>
      ⟨fun hk hheld hreached hfirst => ZoneSettings.segment_warmer hk hheld hreached hfirst,
        ZoneSettings.segment_stays hwarm⟩⟩
  case linear =>
    have hf : s.Falling := ⟨h12, h23, h34⟩
    refine ⟨s.computed t, ZoneSettings.computed_warmest, fun k h1 h3 => ZoneSettings.computed_between hf h1 h3,
      ZoneSettings.computed_coldest hf, ?segment, fun ha => ?unanchored, fun a ha => ?anchored⟩
    case segment =>
      cases ha : z.anchor with
      | none => exact (congrArg Zone.segment (Zone.curveAt_unanchored hm ha) :)
      | some a =>
        refine (congrArg Zone.segment (Zone.curveAt_anchored hm ha)).trans ?_
        split <;> rfl
    case unanchored =>
      have hz : z' = _ := Zone.curveAt_unanchored hm ha
      rw [hz]
      exact ⟨rfl, rfl⟩
    case anchored =>
      have hz : z' = _ := Zone.curveAt_anchored hm ha
      refine ⟨fun hup => ?_, fun hdown hpast => ?_, fun hdown hshort => ?_, fun heq => ?_⟩
      · rw [hz, if_pos (.inl hup)]
        exact ⟨rfl, rfl⟩
      · rw [hz, if_pos (.inr ⟨hdown, hpast⟩)]
        exact ⟨rfl, rfl⟩
      · rw [hz, if_neg (by omega)]
        exact ⟨rfl, ha⟩
      · rw [hz, if_neg (by omega)]
        exact ⟨rfl, ha⟩
end

section
/-!
PROOFS. A zone's evaluation and a heater that fails (spec/07 R122, R124, R133, R134): what the evaluation leaves of the zone's
record, and what its duty request leaves alone.
-/

namespace Sys2Proof.Machine

variable {e : Env} {i n z : Nat} {j j' j0 : Jobs} {r : Zone}

/-! ## T_eff (R124) -/

theorem AirFactor.of_half (d : Int) : AirFactor.half.of d = d.fdiv 2 := (Int.fdiv_eq_ediv_of_nonneg _ (by decide)).symm

theorem AirFactor.of_quarter (d : Int) : AirFactor.quarter.of d = d.fdiv 4 := (Int.fdiv_eq_ediv_of_nonneg _ (by decide)).symm

theorem airCorrection_some (s : SharedSettings) (c : Bool) (air : Int) : airCorrection s c (some air) =
    if c = false then 0 else (if 0 ≤ air - s.pivot then s.cUp else s.cDn).of (air - s.pivot) := by
  cases c <;> rfl

theorem airCorrection_none (s : SharedSettings) (c : Bool) : airCorrection s c none = 0 := by
  cases c <;> rfl

/-! ## The zone record derived (R122 steps 1 to 6) -/

/-- Of a zone's record, at most the segment, the anchor and the curve duty have moved. -/
def Zone.Curved (r r' : Zone) : Prop := ∃ sg an c, r' = { r with segment := sg, anchor := an, curve := c }

theorem Zone.curved_curveAt (s : ZoneSettings) (t : Int) (r : Zone) : r.Curved (r.curveAt s t) := by
  unfold Zone.curveAt
  dsimp only
  split
  · exact ⟨_, _, _, rfl⟩
  · split
    · exact ⟨_, _, _, rfl⟩
    · split_ifs <;> exact ⟨_, _, _, rfl⟩

theorem Zone.curved_curveAbsent (s : ZoneSettings) (unseen : Bool) (r : Zone) : r.Curved (r.curveAbsent s unseen) := by
  unfold Zone.curveAbsent
  split
  · exact ⟨_, _, _, rfl⟩
  · split <;> exact ⟨_, _, _, rfl⟩

/-- R122: the record that steps 1 to 4 derive of a fitted zone. -/
theorem Zone.derive_fitted (air : Option Int) (age : Nat) (failed : Bool) (r : Zone) (h : e.set.fitted n = true) :
    ∃ risk sg an c st, (failed = true → st = .failed) ∧ r.derive e n air age failed =
      { r with
        tEff := tEffOf e.set.shared (e.set.zone n).compensated r.probe air age
        atRisk := risk, segment := sg, anchor := an, curve := c, state := st } := by
  unfold Zone.derive
  dsimp only
  rw [if_neg (by simp [h])]
  generalize tEffOf e.set.shared (e.set.zone n).compensated r.probe air age = t
  have stated : ∀ r', Zone.Curved { r with tEff := t, atRisk := riskMark (e.set.zone n) t r.atRisk } r' →
      ∃ risk sg an c st, (failed = true → st = .failed) ∧ { r' with state := zoneState failed r' } =
        { r with tEff := t, atRisk := risk, segment := sg, anchor := an, curve := c, state := st } := by
    rintro _ ⟨sg, an, c, rfl⟩
    exact ⟨_, sg, an, c, _, fun hfailed => if_pos hfailed, rfl⟩
  cases t with
  | some t => exact stated _ (Zone.curved_curveAt ..)
  | none => exact stated _ (Zone.curved_curveAbsent ..)

/-- R122: the record of zone `n` after steps 1 to 6: derived, with the claim posted and the duty granted. -/
def Zone.evaluated (e : Env) (n : Nat) (air : Option Int) (age : Nat) (failed : Bool) (r : Zone) : Zone :=
  let d := r.derive e n air age failed
  let c := { d with claimClass := (d.claimed e.set n).1, claimUnits := (d.claimed e.set n).2 }
  { c with grantedDuty := c.granted e.set n }

/-- R129: a FAILED zone claims nothing. -/
theorem Zone.claimed_failed (s : Settings) (n : Nat) (h : r.state = .failed) : r.claimed s n = (.none, 0) := by
  unfold Zone.claimed Zone.claimFor
  rw [h]
  exact if_pos (by simp)

/-- R130: a FAILED zone is granted no duty. -/
theorem Zone.granted_failed (s : Settings) (n : Nat) (h : r.state = .failed) : r.granted s n = 0 :=
  if_pos (.inr (.inl h))

theorem Zone.evaluated_tEff (air : Option Int) (age : Nat) (failed : Bool) (r : Zone) (h : e.set.fitted n = true) :
    (r.evaluated e n air age failed).tEff = tEffOf e.set.shared (e.set.zone n).compensated r.probe air age := by
  obtain ⟨_, _, _, _, _, -, hderive⟩ := Zone.derive_fitted air age failed r h
  unfold Zone.evaluated
  rw [hderive]

/-- R125, R129, R130: a fitted zone whose heater has failed is FAILED, claims nothing and is granted no duty; its
proving stands. -/
theorem Zone.evaluated_failed (air : Option Int) (age : Nat) (r : Zone) (h : e.set.fitted n = true) :
    let f := r.evaluated e n air age true
    f.state = .failed ∧ f.proving = r.proving ∧ f.timer = r.timer ∧ f.claimClass = .none ∧ f.claimUnits = 0
      ∧ f.grantedDuty = 0 := by
  obtain ⟨_, _, _, _, _, hst, hderive⟩ := Zone.derive_fitted air age true r h
  obtain rfl := hst rfl
  unfold Zone.evaluated
  rw [hderive]
  dsimp only
  rw [Zone.claimed_failed _ _ rfl]
  exact ⟨rfl, rfl, rfl, rfl, rfl, Zone.granted_failed _ _ rfl⟩

/-! ## What asking a duty leaves alone (R66, R68) -/

/-- The Frost unit's records and the conditions but QUEUE_FULL are as they stood. -/
structure Jobs.FrostStands (j j' : Jobs) : Prop where
  frost : j'.frost = j.frost
  flags : ∀ k, k ≠ CondKind.queueFull → j'.tele.flags k = j.tele.flags k

theorem Jobs.FrostStands.refl (j : Jobs) : Jobs.FrostStands j j := ⟨rfl, fun _ _ => rfl⟩

/-- A change of other fields. -/
theorem Jobs.FrostStands.same (h : Jobs.FrostStands j0 j) (hf : j'.frost = j.frost := by rfl)
    (ht : j'.tele = j.tele := by rfl) : Jobs.FrostStands j0 j' :=
  ⟨hf.trans h.frost, fun k hk => ht ▸ h.flags k hk⟩

theorem Jobs.FrostStands.notice (x : Notice) (h : Jobs.FrostStands j0 j) : Jobs.FrostStands j0 (j.notice e x) :=
  ⟨h.frost, fun k hk => ((Tele.same_postNotice _ _ _).flags k).trans (h.flags k hk)⟩

theorem Jobs.FrostStands.tellOrigin (o : Origin) (i : Nat) (a : Action) (x : CmdResult) (h : Jobs.FrostStands j0 j) :
    Jobs.FrostStands j0 (j.tellOrigin e o i a x) := by
  unfold Jobs.tellOrigin
  cases o with
  | start | frostLeft => dsimp only; split <;> exact h.same
  | fill | guard | frost | allotment | operator => exact h.same

theorem Jobs.FrostStands.cancel (o : Origin) (i : Nat) (a : Action) (h : Jobs.FrostStands j0 j) :
    Jobs.FrostStands j0 (j.cancel e o i a) := by
  unfold Jobs.cancel
  split
  · exact h.tellOrigin ..
  · exact (h.notice _).tellOrigin ..

theorem Jobs.FrostStands.refuse (o : Origin) (i : Nat) (a : Action) (x : Reason) (h : Jobs.FrostStands j0 j) :
    Jobs.FrostStands j0 (j.refuse e o i a x) := ((h.same (j' := j.countRefusal)).notice _).tellOrigin ..

theorem Jobs.FrostStands.restAfter (x : QueueItem) (h : Jobs.FrostStands j0 j) :
    Jobs.FrostStands j0 (j.restAfter e x) := by
  unfold Jobs.restAfter
  split
  · split
    · exact h.same
    · exact h
  · exact h

theorem Jobs.FrostStands.join (x : QueueItem) (h : Jobs.FrostStands j0 j) : Jobs.FrostStands j0 (j.join x).1 := by
  unfold Jobs.join
  split
  · exact h.same
  · exact h

/-- The two outcomes of an operation that says whether it went through. -/
theorem Jobs.FrostStands.of_eq {α : Type} {p : Jobs × α} {b : α} (hp : p = (j', b)) (h : Jobs.FrostStands j0 p.1) :
    Jobs.FrostStands j0 j' := by
  subst hp
  exact h

theorem Jobs.FrostStands.place (o : Origin) (i : Nat) (a : Action) (h : Jobs.FrostStands j0 j) :
    Jobs.FrostStands j0 (j.place e o i a).1 := by
  unfold Jobs.place
  split
  · next old was _ =>
    have hreplaced : Jobs.FrostStands j0 { j with queue := replaceLast i (.cmd i a o) j.queue } := h.same
    split
    · exact h.tellOrigin ..
    · split
      · split
        · next hj => exact ((h.join _).of_eq hj).join _
        · next hj => exact (h.join _).of_eq hj
      · refine Jobs.FrostStands.restAfter _ ?_
        split
        · exact hreplaced.tellOrigin ..
        · split
          · exact hreplaced
          · exact hreplaced.cancel ..
  · exact h.join _

/-- R65: no pump rests at a DUTY. -/
theorem Jobs.FrostStands.enqueue (o : Origin) (i d : Nat) (h : Jobs.FrostStands j0 j) :
    Jobs.FrostStands j0 (j.enqueue e o i (.duty d)).1 := by
  unfold Jobs.enqueue
  split
  · next k hp =>
    have hafter : k.afterQueued e i (.duty d) = k := if_neg (by simp)
    exact ((h.place ..).of_eq hp).same (congrArg Jobs.frost hafter) (congrArg Jobs.tele hafter)
  · next hp => exact (h.place ..).of_eq hp

theorem Jobs.FrostStands.refuseFull (o : Origin) (i : Nat) (a : Action) (h : Jobs.FrostStands j0 j) :
    Jobs.FrostStands j0 (j.refuseFull e o i a) :=
  Jobs.FrostStands.refuse (j := j.raise e .queueFull) o i a .queueFull
    ⟨h.frost, fun k hk => (Tele.flags_raise_ne _ hk _).trans (h.flags k hk)⟩

/-- R66: a DUTY of the Frost unit is taken. -/
theorem Jobs.FrostStands.take (i d : Nat) (h : Jobs.FrostStands j0 j) :
    Jobs.FrostStands j0 (j.take e .frost i (.duty d)).1 := by
  unfold Jobs.take
  split
  · exact h.tellOrigin (e := e) .frost i (.duty d) .notIssued
  · split
    · exact (h.same (j' := j.updateAct i (fun r => { r with parked := some (.duty d, .frost) }))).tellOrigin
        (e := e) .frost i (.duty d) .parked
    · split
      · next x _ => exact h.refuse (e := e) .frost i (.duty d) x
      · rw [if_neg (by decide)]
        split
        · next hp => exact (h.enqueue ..).of_eq hp
        · next hp => exact ((h.enqueue ..).of_eq hp).refuseFull (e := e) .frost i (.duty d)

/-! ## The evaluation (R122, R131) -/

theorem Jobs.zone_updateZone_self (f : Zone → Zone) (h : z < j.frost.zones.length) :
    (j.updateZone z f).zone z = f (j.zone z) := updateAt_getD_self f _ _ _ h

theorem Jobs.length_updateZone (f : Zone → Zone) : (j.updateZone z f).frost.zones.length = j.frost.zones.length :=
  updateAt_length _ _ _

/-- R131: the record before and after a duty request: at most the proving has ended, and the commanded duty has moved. -/
def Zone.Asked (r r' : Zone) : Prop := r' = r ∨ ∃ duty, r' = { r.idle with commandedDuty := duty }

theorem Zone.Asked.tEff {r' : Zone} (h : r.Asked r') : r'.tEff = r.tEff := by
  obtain rfl | ⟨_, rfl⟩ := h <;> rfl

theorem Jobs.asked_askDuty (e : Env) (i d : Nat) (hz : z < j.frost.zones.length) :
    (j.zone z).Asked ((j.askDuty e z i d).zone z) := by
  have hidle := Jobs.zone_updateZone_self Zone.idle hz
  have hlen := Jobs.length_updateZone (j := j) (z := z) Zone.idle
  have hfrost := ((Jobs.FrostStands.refl (j.updateZone z Zone.idle)).take (e := e) i d).frost
  unfold Jobs.askDuty Jobs.dutyTaken
  dsimp only
  generalize (j.updateZone z Zone.idle).take e .frost i (.duty d) = taken at hfrost
  have hzone : taken.1.zone z = (j.zone z).idle := (congrArg (fun f => f.zones.getD z .powerOn) hfrost).trans hidle
  refine .inr ?_
  split
  · rw [Jobs.zone_updateZone_self _ (by rw [hfrost, hlen]; exact hz), hzone]
    exact ⟨_, rfl⟩
  · exact ⟨_, hzone⟩

theorem Jobs.asked_dutyRequest (e : Env) (hz : z < j.frost.zones.length) :
    (j.zone z).Asked ((j.dutyRequest e z).zone z) := by
  unfold Jobs.dutyRequest
  split
  · exact .inl rfl
  · dsimp only
    split
    · exact Jobs.asked_askDuty e _ _ hz
    · exact .inl rfl

theorem Jobs.dutyRequest_flags (e : Env) (z : Nat) (j : Jobs) {k : CondKind} (hk : k ≠ .queueFull) :
    (j.dutyRequest e z).tele.flags k = j.tele.flags k := by
  unfold Jobs.dutyRequest
  split
  · rfl
  · next i _ =>
    dsimp only
    split
    · have htaken := ((Jobs.FrostStands.refl (j.updateZone z Zone.idle)).take (e := e) i (j.zone z).grantedDuty).flags k hk
      unfold Jobs.askDuty Jobs.dutyTaken
      dsimp only
      split <;> exact htaken
    · rfl

theorem Jobs.postZone_frost (z : Nat) (c : ClaimClass) (u : Nat) (j : Jobs) : (j.postZone z c u).frost = j.frost := by
  unfold Jobs.postZone
  dsimp only
  split <;> rfl

theorem Jobs.postZone_tele (z : Nat) (c : ClaimClass) (u : Nat) (j : Jobs) : (j.postZone z c u).tele = j.tele := by
  unfold Jobs.postZone
  dsimp only
  split <;> rfl

theorem Jobs.freezeTest_frost (e : Env) (j : Jobs) : (j.freezeTest e).frost = j.frost := by
  unfold Jobs.freezeTest Jobs.keep
  split <;> rfl

/-- R122: an evaluation leaves the record of its zone evaluated, but for what its duty request moves. -/
theorem Jobs.zoneEvaluate_zone (e : Env) (hz : z < j.frost.zones.length) :
    ((j.zone z).evaluated e z j.frost.air j.frost.age (j.heaterFailed e z)).Asked ((j.zoneEvaluate e z).zone z) := by
  let derived := j.updateZone z (fun r => r.derive e z j.frost.air j.frost.age (j.heaterFailed e z))
  let claim := (derived.zone z).claimed e.set z
  let claimed := derived.updateZone z (fun r => { r with claimClass := claim.1, claimUnits := claim.2 })
  let posted := claimed.postZone z claim.1 claim.2
  let granted := posted.updateZone z (fun r => { r with grantedDuty := r.granted e.set z })
  have hposted : posted.frost = claimed.frost := Jobs.postZone_frost ..
  have hlen : posted.frost.zones.length = j.frost.zones.length := by
    rw [hposted, Jobs.length_updateZone, Jobs.length_updateZone]
  have hgranted : granted.zone z = (j.zone z).evaluated e z j.frost.air j.frost.age (j.heaterFailed e z) := by
    have hclaimed : posted.zone z = claimed.zone z := congrArg (fun f => f.zones.getD z .powerOn) hposted
    rw [Jobs.zone_updateZone_self _ (hlen.symm ▸ hz), hclaimed,
      Jobs.zone_updateZone_self _ ((Jobs.length_updateZone _).symm ▸ hz)]
    dsimp only [claim]
    rw [Jobs.zone_updateZone_self _ hz]
    rfl
  have hrequest := Jobs.asked_dutyRequest (j := granted) e (by rw [Jobs.length_updateZone, hlen]; exact hz)
  rw [hgranted] at hrequest
  have hzone : (j.zoneEvaluate e z).zone z = (granted.dutyRequest e z).zone z :=
    congrArg (fun f => f.zones.getD z .powerOn) (Jobs.freezeTest_frost e (granted.dutyRequest e z))
  exact hzone ▸ hrequest

theorem Jobs.zoneEvaluate_flags (e : Env) (z : Nat) (j : Jobs) {k : CondKind} (hq : k ≠ .queueFull) (hf : k ≠ .freezeRisk) :
    (j.zoneEvaluate e z).tele.flags k = j.tele.flags k := by
  have hkeep : ∀ i : Jobs, (i.freezeTest e).tele.flags k = i.tele.flags k := by
    intro i
    unfold Jobs.freezeTest Jobs.keep
    split
    · exact Tele.flags_raise_ne _ hf _
    · exact Tele.flags_clear_ne _ hf _
  unfold Jobs.zoneEvaluate
  dsimp only
  rw [hkeep, Jobs.dutyRequest_flags e z _ hq, Jobs.updateZone_tele, Jobs.postZone_tele]
  rfl

/-! ## A heater that fails (R134) -/

/-- R119: the heater of a zone is an entry in use, so the Actuator Table has it. -/
theorem Settings.heater_lt {s : Settings} (h : s.heater z = some i) : i < s.actuators.length := by
  by_contra hout
  have hunused : (s.act i).inUse = false := by
    unfold Settings.act
    rw [List.getD_eq_default _ _ (Nat.le_of_not_lt hout)]
    rfl
  unfold Settings.heater at h
  split at h
  · cases h
  · next k _ =>
    dsimp only at h
    split at h
    · next hused =>
      obtain rfl := Option.some.inj h
      simp [hunused] at hused
    · cases h

theorem Settings.fitted_of_heater {s : Settings} (h : s.heater z = some i) : s.fitted z = true := by
  unfold Settings.fitted
  rw [h, Option.isSome_some, Bool.or_true]

theorem Jobs.failHeater_known (h : e.set.heater z = some i) : j.failHeater e z =
    (((j.setFault i .noHeat).updateZone z Zone.idle).raise e .heaterFail).zoneEvaluate e z := by
  unfold Jobs.failHeater
  rw [h]

/-- R134: of what a command alone writes, the heater's fault is all that moves. -/
theorem Jobs.wrote_failHeater (h : e.set.heater z = some i) (hi : i < j.acts.length) :
    Jobs.Wrote i { j.act i with fault := .noHeat } j.flight j (j.failHeater e z) := by
  rw [Jobs.failHeater_known h]
  exact ((Jobs.Wrote.refl i j).setFault .noHeat hi).hull
    (((Jobs.Moves.refl (dry := false)).updateZone z Zone.idle).raise .heaterFail rfl |>.zoneEvaluate z).hull_eq

theorem Jobs.heaterFailed_known (h : e.set.heater z = some i) (hf : (j.act i).fault = .noHeat) :
    j.heaterFailed e z = true := by
  unfold Jobs.heaterFailed
  rw [h]
  exact beq_iff_eq.mpr hf

/-- R134: the zone is then FAILED and IDLE, claims nothing and is granted no duty. -/
theorem Jobs.failHeater_zone (h : e.set.heater z = some i) (hi : i < j.acts.length) (hz : z < j.frost.zones.length) :
    let r := (j.failHeater e z).zone z
    r.state = .failed ∧ r.proving = .idle ∧ r.timer = none ∧ r.claimClass = .none ∧ r.claimUnits = 0
      ∧ r.grantedDuty = 0 := by
  let k := ((j.setFault i .noHeat).updateZone z Zone.idle).raise e .heaterFail
  have hlen : z < k.frost.zones.length := (Jobs.length_updateZone (j := j.setFault i .noHeat) Zone.idle).symm ▸ hz
  have hidle : k.zone z = (j.zone z).idle := Jobs.zone_updateZone_self (j := j.setFault i .noHeat) Zone.idle hz
  have hfailed : k.heaterFailed e z = true :=
    Jobs.heaterFailed_known h (congrArg ActRuntime.fault (Jobs.act_updateAct_self (fun a => { a with fault := .noHeat }) hi))
  have hasked := Jobs.zoneEvaluate_zone e hlen
  rw [hfailed, hidle] at hasked
  obtain ⟨hstate, hproving, htimer, hclass, hunits, hduty⟩ :=
    Zone.evaluated_failed k.frost.air k.frost.age (j.zone z).idle (Settings.fitted_of_heater h)
  rw [Jobs.failHeater_known h]
  obtain hr | ⟨_, hr⟩ := hasked <;> rw [hr]
  · exact ⟨hstate, hproving, htimer, hclass, hunits, hduty⟩
  · exact ⟨hstate, rfl, rfl, hclass, hunits, hduty⟩

theorem Jobs.failHeater_active (h : e.set.heater z = some i) (hc : j.tele.conds.length = 22) :
    (j.failHeater e z).active .heaterFail = true := by
  rw [Jobs.failHeater_known h]
  exact (congrArg Prod.fst (Jobs.zoneEvaluate_flags e z _ (by decide) (by decide))).trans
    (Jobs.raise_active (j := (j.setFault i .noHeat).updateZone z Zone.idle) e .heaterFail hc)

/-- R133: only a running timer of a heater that is PROVING or PROVED fails it. -/
theorem Jobs.heaterProveExpiry_idle (h : (j.zone z).timer = none ∨ (j.zone z).proving = .idle) :
    j.heaterProveExpiry e z = j := by
  refine if_neg ?_
  obtain ht | hp := h
  · simp [ht]
  · simp [hp]

theorem Jobs.heaterProveExpiry_running (ht : (j.zone z).timer ≠ none) (hp : (j.zone z).proving ≠ .idle) :
    j.heaterProveExpiry e z = j.failHeater e z :=
  if_pos (by simp [hp, Option.isSome_iff_ne_none, ht])

end Sys2Proof.Machine

open Sys2Proof Sys2Proof.Machine

/-- Settles O48: the evaluation leaves the T_eff of `Zone.evaluated_tEff`, and its duty request moves no T_eff. -/
theorem effectiveTemperature : Obligations.EffectiveTemperature := by
  intro e j z hz hfitted s compensated correction offset
  have htEff : ((j.zoneEvaluate e z).zone z).tEff = tEffOf s compensated (j.zone z).probe j.frost.air j.frost.age :=
    (Jobs.zoneEvaluate_zone e hz).tEff.trans (Zone.evaluated_tEff _ _ _ _ hfitted)
  have hcorrection : airCorrection s compensated j.frost.air = correction := by
    dsimp only [correction]
    cases j.frost.air with
    | none => exact airCorrection_none ..
    | some air =>
      rw [airCorrection_some]
      dsimp only
      generalize (if 0 ≤ air - s.pivot then s.cUp else s.cDn) = factor
      cases factor with
      | one | none => rfl
      | half => rw [AirFactor.of_half]
      | quarter => rw [AirFactor.of_quarter]
  have hoffset : stagnationOffset s compensated j.frost.age = offset := by
    unfold stagnationOffset
    simp [offset]
  rw [htEff, tEffOf, hcorrection, hoffset]
  rfl

/-- Settles O50: what the failing writes is `Jobs.wrote_failHeater`, and the zone and HEATER_FAIL after it are
`Jobs.failHeater_zone` and `Jobs.failHeater_active`. -/
theorem heaterProveExpiryFailsHeater : Obligations.HeaterProveExpiryFailsHeater := by
  refine ⟨fun z s hs => ?_, fun e j z i hheater hi hz hconds => ?_⟩
  · have hexec : exec (.heaterProveTimerExpiry z) s = .next (s.work (fun e j => j.heaterProveExpiry e z)).creditWatch :=
      exec_ready hs (by simp) (by simp)
    refine ⟨fun h => ?idle, fun i hshape ht hp hheater => ⟨_, hexec, ?fails⟩⟩
    case idle => rw [hexec, State.work_idle hs.2 (Jobs.heaterProveExpiry_idle h)]
    case fails =>
      have hi : i < s.jobs.acts.length := by
        obtain ⟨⟨-, hentries, -⟩, -⟩ := id hshape
        exact (Settings.heater_lt hheater).trans_eq (hentries.trans hshape.acts.symm)
      have hexpiry := Jobs.heaterProveExpiry_running (e := s.env) ht hp
      obtain ⟨hfault, hreported, hsettled, hothers, hflight⟩ := State.work_faulted (f := fun e j => j.heaterProveExpiry e z)
        (hexpiry ▸ Jobs.wrote_failHeater hheater hi)
      exact ⟨hfault, hreported, hsettled, hothers, rfl, rfl, hflight⟩
  · intro k
    obtain ⟨hstate, hproving, htimer, hclass, hunits, hduty⟩ := Jobs.failHeater_zone hheater hi hz
    exact ⟨hstate, hproving, htimer, hclass, hunits, hduty, Jobs.failHeater_active hheater hconds⟩
end

section
/-!
PROOFS. The walk of an allotment pass (spec/08 R142): each claim has at most one turn, and what the turns leave of the cap.
-/

namespace Sys2Proof.Machine

variable {s : Settings} {n k left left' : Nat} {c : Claim} {claims : List Claim}

/-! ## The turns of the walk -/

/-- One turn of the walk: the claims that its step takes, and the consumer whose turn it is. -/
abbrev PassTurn := (Claim → Bool) × Nat

variable {t : PassTurn} {ts : List PassTurn} {cap : Nat} {w : List Claim × Nat}

/-- The turn takes claim `c` of consumer `n`. -/
def PassTurn.Takes (t : PassTurn) (n : Nat) (c : Claim) : Prop := t.2 = n ∧ t.1 c = true

/-- The turns of the five steps, in the order of the walk (R142). -/
def passTurns : List PassTurn := passSteps.flatMap fun step => step.2.map (Prod.mk step.1)

theorem walk_eq_foldl_passTurns (s : Settings) (cap : Nat) (claims : List Claim) :
    walk s cap claims =
      passTurns.foldl (fun w t => grantTurn s t.1 w t.2) (claims.map (fun c => { c with granted := 0 }), cap) := by
  simp only [walk, passTurns, List.foldl_flatMap, List.foldl_map]

theorem mem_passTurns : t ∈ passTurns ↔ ∃ step ∈ passSteps, t.1 = step.1 ∧ t.2 ∈ step.2 := by
  constructor
  · intro h
    obtain ⟨step, hstep, ht⟩ := List.mem_flatMap.1 h
    obtain ⟨consumer, hconsumer, rfl⟩ := List.mem_map.1 ht
    exact ⟨step, hstep, rfl, hconsumer⟩
  · rintro ⟨step, hstep, htakes, hconsumer⟩
    exact List.mem_flatMap.2 ⟨step, hstep, List.mem_map.2 ⟨t.2, hconsumer, Prod.ext htakes.symm rfl⟩⟩

/-- No step takes a claim of two steps: the steps differ in the class, or in the incumbent flag. -/
theorem passSteps_disjoint : passSteps.Pairwise (fun a b => ∀ c, a.1 c = true → b.1 c = false) := by
  simp +contextual [passSteps]

/-- A list of turns as R142 asks for it: a step does not look at the grants, it takes no claim of class NONE, and no claim has
two turns. -/
structure TurnsFair (ts : List PassTurn) : Prop where
  blind : ∀ t ∈ ts, ∀ (c : Claim) (g : Nat), t.1 { c with granted := g } = t.1 c
  classed : ∀ t ∈ ts, ∀ c, t.1 c = true → c.cls ≠ .none
  once : ts.Pairwise (fun t u => ∀ n c, t.Takes n c → ¬ u.Takes n c)

theorem TurnsFair.tail (h : TurnsFair (t :: ts)) : TurnsFair ts where
  blind u hu := h.blind u (List.mem_cons_of_mem t hu)
  classed u hu := h.classed u (List.mem_cons_of_mem t hu)
  once := h.once.of_cons

theorem turnsFair_passTurns : TurnsFair passTurns where
  blind t ht c g := by
    obtain ⟨step, hstep, htakes, -⟩ := mem_passTurns.1 ht
    have hsteps : ∀ step ∈ passSteps, step.1 { c with granted := g } = step.1 c := by simp [passSteps]
    rw [htakes, hsteps step hstep]
  classed t ht c := by
    obtain ⟨step, hstep, htakes, -⟩ := mem_passTurns.1 ht
    have hsteps : ∀ step ∈ passSteps, step.1 c = true → c.cls ≠ .none := by simp +contextual [passSteps]
    rw [htakes]
    exact hsteps step hstep
  once := by
    refine List.pairwise_flatMap.2 ⟨fun step hstep => ?within, passSteps_disjoint.imp fun hab t ht u hu n c => ?across⟩
    case within =>
      have hnodup : ∀ step ∈ passSteps, step.2.Nodup := by simp [passSteps, zonesThenPumps, pumpsThenZones]
      exact List.pairwise_map.2 ((hnodup step hstep).imp fun hne n c hx hy => hne (hx.1.trans hy.1.symm))
    case across =>
      obtain ⟨x, -, rfl⟩ := List.mem_map.1 ht
      obtain ⟨y, -, rfl⟩ := List.mem_map.1 hu
      exact fun ⟨_, hx⟩ ⟨_, hy⟩ => Bool.false_ne_true ((hab c hx).symm.trans hy)

/-- R142: each class but NONE has its step (OPPORTUNISTIC one for each incumbent flag), and each step its turn for every
consumer. -/
theorem exists_passTurn_takes (hn : n < 6) (hc : c.cls ≠ .none) : ∃ t ∈ passTurns, t.Takes n c := by
  have hstep : ∃ step ∈ passSteps, step.1 c = true := by
    cases hcls : c.cls with
    | none => exact absurd hcls hc
    | critical | committed | normal => simp [passSteps, hcls]
    | opportunistic => cases hflag : c.incumbent <;> simp [passSteps, hcls, hflag]
  have hconsumer : ∀ step ∈ passSteps, n ∈ step.2 := by
    simp [passSteps, zonesThenPumps, pumpsThenZones]
    omega
  obtain ⟨step, hmem, htakes⟩ := hstep
  exact ⟨(step.1, n), mem_passTurns.2 ⟨step, hmem, rfl, hconsumer step hmem⟩, rfl, htakes⟩

/-! ## The grant of a turn -/

theorem grantOf_pump (hn : n < 2) : grantOf s n c left = if c.requested ≤ left then c.requested else 0 := if_pos hn

theorem grantOf_le_min (s : Settings) (n : Nat) (c : Claim) (left : Nat) : grantOf s n c left ≤ min c.requested left := by
  unfold grantOf
  dsimp only
  split_ifs <;> omega

theorem updateAt_eq_modify {α : Type} (f : α → α) (i : Nat) (l : List α) : updateAt f i l = l.modify i f := by
  induction l generalizing i with
  | nil => cases i <;> rfl
  | cons x l ih =>
    cases i with
    | zero => rfl
    | succ i => simp [updateAt, ih]

/-- A grant given to a claim that had none adds its units to the total. -/
theorem sum_granted_updateAt (g : Nat) (hc : claims[k]? = some c) (hfresh : c.granted = 0) :
    ((updateAt (fun d => { d with granted := g }) k claims).map (·.granted)).sum = (claims.map (·.granted)).sum + g := by
  induction claims generalizing k with
  | nil => simp at hc
  | cons d claims ih =>
    cases k with
    | zero =>
      obtain rfl : d = c := by simpa using hc
      simp [updateAt, hfresh, Nat.add_comm]
    | succ k =>
      have hrest := ih (k := k) (by simpa using hc)
      simp [updateAt, hrest, Nat.add_assoc]

/-- What a turn does: it takes nothing and moves nothing, or it grants the one claim that it takes. -/
theorem grantTurn_cases (hnone : t.1 .powerOn = false) (w : List Claim × Nat) :
    (grantTurn s t.1 w t.2 = w ∧ ∀ n c, w.1[n]? = some c → ¬ t.Takes n c)
      ∨ ∃ c, w.1[t.2]? = some c ∧ t.Takes t.2 c ∧
          grantTurn s t.1 w t.2 =
            (updateAt (fun d => { d with granted := grantOf s t.2 c w.2 }) t.2 w.1, w.2 - grantOf s t.2 c w.2) := by
  rw [grantTurn]
  dsimp only
  cases hw : w.1[t.2]? with
  | none =>
    have hidle : t.1 (w.1.getD t.2 .powerOn) = false := by rwa [List.getD_eq_getElem?_getD, hw, Option.getD_none]
    refine .inl ⟨if_neg (Bool.not_eq_true _ ▸ hidle), fun n c hc ht => ?_⟩
    simp [← ht.1, hw] at hc
  | some d =>
    have hd : w.1.getD t.2 .powerOn = d := by rw [List.getD_eq_getElem?_getD, hw, Option.getD_some]
    rw [hd]
    by_cases ht : t.1 d = true
    · exact .inr ⟨d, rfl, ⟨rfl, ht⟩, if_pos ht⟩
    · refine .inl ⟨if_neg ht, fun n c hc htakes => ht ?_⟩
      obtain rfl : d = c := Option.some.inj (hw.symm.trans (htakes.1 ▸ hc))
      exact htakes.2

/-! ## The walk -/

/-- Where claim `c` of consumer `n` stands while the turns `ts` are still to come and `left` units remain: it has its grant
only once its turn is past, and a pump whose turn is past without a grant did not fit. -/
structure ClaimWalked (ts : List PassTurn) (left n : Nat) (c : Claim) : Prop where
  bounded : c.granted ≤ c.requested
  unclassed : c.cls = .none → c.granted = 0
  waiting : (∃ t ∈ ts, t.Takes n c) → c.granted = 0
  whole : n < 2 → c.granted = 0 ∨ c.granted = c.requested
  passedOver : n < 2 → c.cls ≠ .none → (∀ t ∈ ts, ¬ t.Takes n c) → c.granted = 0 → 0 < c.requested → left < c.requested

/-- A claim whose turn it is not stays as it stands, however few units remain. -/
theorem ClaimWalked.skip (h : ClaimWalked (t :: ts) left n c) (ht : ¬ t.Takes n c)
    (hleft : left' ≤ left) : ClaimWalked ts left' n c where
  bounded := h.bounded
  unclassed := h.unclassed
  waiting := fun ⟨u, hu, htakes⟩ => h.waiting ⟨u, List.mem_cons_of_mem t hu, htakes⟩
  whole := h.whole
  passedOver hn hcls hpast hzero hpos :=
    hleft.trans_lt (h.passedOver hn hcls (List.forall_mem_cons.2 ⟨ht, hpast⟩) hzero hpos)

/-- A claim on its only turn gets its grant. -/
theorem ClaimWalked.granted (hts : TurnsFair (t :: ts)) (ht : t.Takes n c) :
    ClaimWalked ts (left - grantOf s n c left) n { c with granted := grantOf s n c left } where
  bounded := (grantOf_le_min s n c left).trans (min_le_left _ _)
  unclassed hnone := absurd hnone (hts.classed t List.mem_cons_self c ht.2)
  waiting := by
    rintro ⟨u, hu, hn, htakes⟩
    rw [hts.tail.blind u hu] at htakes
    exact absurd ⟨hn, htakes⟩ (List.rel_of_pairwise_cons hts.once hu n c ht)
  whole hn := by
    dsimp only
    rw [grantOf_pump hn]
    split_ifs <;> simp
  passedOver hn _ _ hzero hpos := by
    dsimp only at hzero hpos ⊢
    rw [grantOf_pump hn] at hzero ⊢
    split_ifs at hzero ⊢ <;> omega

/-- What holds all along the walk from `cap` over `claims`, with the turns `ts` still to come. -/
structure Walked (cap : Nat) (claims : List Claim) (ts : List PassTurn) (w : List Claim × Nat) : Prop where
  total : (w.1.map (·.granted)).sum + w.2 = cap
  frame : w.1.map (fun c => { c with granted := 0 }) = claims.map (fun c => { c with granted := 0 })
  each : ∀ n c, w.1[n]? = some c → ClaimWalked ts w.2 n c

theorem Walked.turn (hts : TurnsFair (t :: ts))
    (h : Walked cap claims (t :: ts) w) : Walked cap claims ts (grantTurn s t.1 w t.2) := by
  have hnone : t.1 .powerOn = false := by
    by_contra htakes
    exact hts.classed t List.mem_cons_self .powerOn (by simpa using htakes) rfl
  obtain ⟨hidle, hskip⟩ | ⟨c, hc, htakes, hgrant⟩ := grantTurn_cases (s := s) hnone w
  · rw [hidle]
    exact ⟨h.total, h.frame, fun n c hc => (h.each n c hc).skip (hskip n c hc) le_rfl⟩
  · have hfresh : c.granted = 0 := (h.each _ c hc).waiting ⟨t, List.mem_cons_self, htakes⟩
    have hfits : grantOf s t.2 c w.2 ≤ w.2 := (grantOf_le_min ..).trans (min_le_right _ _)
    rw [hgrant]
    refine ⟨?total, ?frame, fun n d hd => ?each⟩
    case total =>
      have htotal := h.total
      have hsum := sum_granted_updateAt (grantOf s t.2 c w.2) hc hfresh
      dsimp only
      omega
    case frame =>
      refine (updateAt_map _ _ _ _ ?_).trans h.frame
      exact fun _ => rfl
    case each =>
      rw [updateAt_eq_modify, List.getElem?_modify] at hd
      by_cases hn : t.2 = n
      · subst hn
        obtain rfl : _ = d := by simpa [hc] using hd
        exact .granted hts htakes
      · have hsame : w.1[n]? = some d := by simpa [hn] using hd
        exact (h.each n d hsame).skip (fun hd => hn hd.1) (Nat.sub_le ..)

theorem Walked.turns (hts : TurnsFair ts)
    (h : Walked cap claims ts w) : Walked cap claims [] (ts.foldl (fun w t => grantTurn s t.1 w t.2) w) := by
  induction ts generalizing w with
  | nil => exact h
  | cons t ts ih => exact ih hts.tail (h.turn hts)

/-- R142: a pass begins with every grant at 0 and the whole cap, and every pump that claims anything has its turn to come. -/
theorem Walked.start (cap : Nat) (claims : List Claim) :
    Walked cap claims passTurns (claims.map (fun c => { c with granted := 0 }), cap) where
  total := by simp [Function.comp_def]
  frame := by simp
  each n c hc := by
    have hzero : c.granted = 0 := by
      obtain ⟨d, -, rfl⟩ := List.mem_map.1 (List.mem_of_getElem? hc)
      rfl
    refine ⟨by omega, fun _ => hzero, fun _ => hzero, fun _ => .inl hzero, fun hn hcls hpast => ?_⟩
    obtain ⟨t, ht, htakes⟩ := exists_passTurn_takes (hn.trans (by decide)) hcls
    exact absurd htakes (hpast t ht)

theorem walked_walk (s : Settings) (cap : Nat) (claims : List Claim) : Walked cap claims [] (walk s cap claims) := by
  rw [walk_eq_foldl_passTurns]
  exact (Walked.start cap claims).turns turnsFair_passTurns

end Sys2Proof.Machine

open Sys2Proof Sys2Proof.Machine

/-- Settles O51: the walk keeps `Walked` turn by turn, and after its last turn no claim is still waiting. -/
theorem walkNeverExceedsCap : Obligations.WalkNeverExceedsCap := by
  intro set cap claims w
  have hw : Walked cap claims [] w := walked_walk set cap claims
  refine ⟨hw.total, hw.frame, fun c hc => ?_, fun n hn c hc => ?_⟩
  · obtain ⟨n, hn⟩ := List.mem_iff_getElem?.1 hc
    exact ⟨(hw.each n c hn).bounded, (hw.each n c hn).unclassed⟩
  · exact ⟨(hw.each n c hc).whole hn, fun hcls => (hw.each n c hc).passedOver hn hcls (by simp)⟩
end

section
/-!
PROOFS. What every operation of the Condition and Report units keeps: the alert line's rule (spec/09 R157, R158) and the bounds of
the Report unit (R152, R163 to R165).
The proofs are elaborated one after the other, which keeps the whole text inside the sandbox's memory.
-/

set_option Elab.async false

namespace Sys2Proof.Machine

variable {a : AlertSettings} {v : TeleEnv} {t t' t'' : Tele}

/-! ## The relation -/

/-- R157, R158: in LEVEL mode the line is derived from the table, and no pulse runs. -/
def Tele.Follows (a : AlertSettings) (t : Tele) : Prop := t.AlertFollows a ∧ t.PulseFollows a

/-- A change of the units that keeps the alert line's rule and the bounds of the Report unit. -/
structure Tele.Keeps (a : AlertSettings) (t t' : Tele) : Prop where
  follows : t.Follows a → t'.Follows a
  bounds : t.Bounds → t'.Bounds

theorem Tele.Keeps.refl (a : AlertSettings) (t : Tele) : Tele.Keeps a t t := ⟨id, id⟩

theorem Tele.Keeps.trans (h : Tele.Keeps a t t') (h' : Tele.Keeps a t' t'') : Tele.Keeps a t t'' :=
  ⟨h'.follows ∘ h.follows, h'.bounds ∘ h.bounds⟩

/-! ## The alert line (R157, R158) -/

/-- A change that moves no flag, not the line and not the pulse timer. -/
theorem Tele.Follows.of_same (h : t.Follows a) (hs : Tele.Same t t') : t'.Follows a :=
  ⟨h.1.of_same hs, fun hm => hs.pulse.trans (h.2 hm)⟩

/-- R157: the rule is LEVEL mode's alone. -/
theorem Tele.follows_of_pulse (t : Tele) (hm : a.mode ≠ .level) : t.Follows a :=
  ⟨fun h => absurd h hm, fun h => absurd h hm⟩

theorem Tele.Follows.raise (h : t.Follows v.alerts) (k : CondKind) : (t.raise v k).Follows v.alerts :=
  ⟨t.alertFollows_raise v k h.1, fun hm => (t.raise_pulse v k hm).trans (h.2 hm)⟩

theorem Tele.Follows.clear (h : t.Follows v.alerts) (k : CondKind) : (t.clear v k).Follows v.alerts :=
  ⟨t.alertFollows_clear v k h.1, fun hm => (t.clear_pulse v k).trans (h.2 hm)⟩

/-- R154: an acknowledgement does not touch a pulse. -/
theorem Tele.acknowledge_pulse (v : TeleEnv) (k : CondKind) (t : Tele) : (t.acknowledge v k).pulse = t.pulse := by
  unfold Tele.acknowledge
  split
  · rfl
  · refine (Tele.same_report v k _).pulse.trans ?_
    split
    · exact Tele.deriveAlert_pulse v _
    · rfl

theorem Tele.Follows.acknowledge (h : t.Follows v.alerts) (k : CondKind) : (t.acknowledge v k).Follows v.alerts :=
  ⟨t.alertFollows_acknowledge v k h.1, fun hm => (t.acknowledge_pulse v k).trans (h.2 hm)⟩

/-- R158: in LEVEL mode no pulse runs that could end. -/
theorem Tele.Follows.pulseExpiry (h : t.Follows a) : t.pulseExpiry.Follows a := by
  unfold Tele.pulseExpiry
  split
  · next hp =>
    exact Tele.follows_of_pulse _ fun hm => by rw [h.2 hm] at hp; cases hp
  · exact h

/-- A derivation at a pulse timer that is stopped puts the line where R157 wants it. -/
theorem Tele.follows_deriveAlert (v : TeleEnv) (hp : v.alerts.mode = .level → t.pulse = none) :
    (t.deriveAlert v).Follows v.alerts :=
  ⟨t.alertFollows_derive v, fun hm => (t.deriveAlert_pulse v).trans (hp hm)⟩

/-- R156, R157: a CONDITIONS write, by the mode in force before it and the one after. -/
theorem Tele.Follows.alertsWritten (h : t.Follows a) : (t.alertsWritten v a.mode).Follows v.alerts := by
  cases hold : a.mode <;> cases hnew : v.alerts.mode <;> simp only [Tele.alertsWritten, hnew]
  case level.level => exact Tele.follows_deriveAlert v fun _ => h.2 hold
  case pulse.level => exact Tele.follows_deriveAlert v fun _ => rfl
  case level.pulse | pulse.pulse => exact Tele.follows_of_pulse _ (by rw [hnew]; decide)

/-- R162: a POLICY write moves no flag. -/
theorem Tele.same_policyWritten (v : TeleEnv) (old : PolicySettings) (i : Nat) (t : Tele) :
    Tele.Same t (t.policyWritten v old i) := by
  have gone : Tele.Same t (({ t with due := t.due.erase i } : Tele).updatePolicy i (fun _ => .powerOn)) :=
    ⟨fun _ => rfl, rfl, rfl, rfl⟩
  unfold Tele.policyWritten
  dsimp only
  split
  · split
    · exact gone
    · exact gone.trans ((Tele.same_becomeDue i _).trans (Tele.same_pack v _))
  · split
    · exact ⟨fun _ => rfl, rfl, rfl, rfl⟩
    · exact .refl t

/-! ## Operations of the units -/

/-- An operation that moves no flag and not the line, within the bounds. -/
theorem Tele.Keeps.of_same (hs : Tele.Same t t') (hb : t.Bounds → t'.Bounds) : Tele.Keeps a t t' :=
  ⟨fun h => h.of_same hs, hb⟩

theorem Tele.keeps_raise (v : TeleEnv) (k : CondKind) (t : Tele) : Tele.Keeps v.alerts t (t.raise v k) :=
  ⟨fun h => h.raise k, fun h => h.raise v k⟩

theorem Tele.keeps_clear (v : TeleEnv) (k : CondKind) (t : Tele) : Tele.Keeps v.alerts t (t.clear v k) :=
  ⟨fun h => h.clear k, fun h => h.clear v k⟩

theorem Tele.keeps_acknowledge (v : TeleEnv) (k : CondKind) (t : Tele) : Tele.Keeps v.alerts t (t.acknowledge v k) :=
  ⟨fun h => h.acknowledge k, fun h => h.acknowledge v k⟩

theorem Tele.keeps_pulseExpiry (a : AlertSettings) (t : Tele) : Tele.Keeps a t t.pulseExpiry :=
  ⟨fun h => h.pulseExpiry, fun h => h.pulseExpiry⟩

/-! ## Resets (R155, R171) -/

theorem Tele.Bounds.powerOn : Tele.powerOn.Bounds := (Tele.bounded_iff _).mp (by decide)

/-- R155: nothing has been raised: the line is released. -/
theorem Tele.Follows.powerOn (a : AlertSettings) : Tele.powerOn.Follows a := by
  have inactive : ∀ k, (Tele.powerOn.cond k).active = false := fun k => by cases k <;> rfl
  refine ⟨fun _ => ⟨nofun, ?_⟩, fun _ => rfl⟩
  rintro ⟨k, -, -, hactive, -⟩
  rw [inactive k] at hactive
  cases hactive

/-- R155: a restart refills the urgent due list in code order, each kind once. -/
theorem Tele.refillUrgent_nodup (t : Tele) : t.refillUrgent.urgentDue.Nodup :=
  List.Nodup.filter _ (by decide)

/-- R155, R158, R171: a restart empties the lists and the cells. -/
theorem Tele.bounds_restarted (v : TeleEnv) (unset : Bool) (t : Tele) : (t.restarted v unset).Bounds := by
  refine Tele.Bounds.pack (Tele.Bounds.deriveAlert ?_ v) v
  exact ⟨Nat.zero_le _, Nat.zero_le _, Nat.zero_le _, Nat.zero_le _, Tele.refillUrgent_nodup _, List.nodup_nil,
    List.length_replicate, nofun⟩

theorem Tele.follows_restarted (v : TeleEnv) (unset : Bool) (t : Tele) : (t.restarted v unset).Follows v.alerts :=
  (Tele.follows_deriveAlert v fun _ => rfl).of_same (Tele.same_pack v _)

end Sys2Proof.Machine
end

section
/-!
PROOFS. What a command itself does in the blocks keeps the alert line's rule and the bounds of the Report unit (spec/09 R157, R158;
R152, R163 to R165): of the Condition and Report units a block moves no more than their own operations do.
The proofs are elaborated one after the other, which keeps the whole text inside the sandbox's memory.
-/

set_option Elab.async false

namespace Sys2Proof.Machine

variable {set : Settings} {e : Env} {j0 j j' : Jobs} {p q : Part}

/-! ## The relation -/

/-- R157, R152: a change of the blocks that keeps the alert line's rule, under the settings given, and the bounds of the Report
unit. -/
def Jobs.Reports (set : Settings) (j j' : Jobs) : Prop := Tele.Keeps set.alerts j.tele j'.tele

theorem Jobs.Reports.refl (set : Settings) (j : Jobs) : Jobs.Reports set j j := Tele.Keeps.refl ..

theorem Jobs.Reports.trans (h : Jobs.Reports set j0 j) (h' : Jobs.Reports set j j') : Jobs.Reports set j0 j' :=
  Tele.Keeps.trans h h'

/-- A change that leaves the Condition and Report units alone. -/
theorem Jobs.Reports.same (h : Jobs.Reports set j0 j) (ht : j'.tele = j.tele := by rfl) : Jobs.Reports set j0 j' := by
  unfold Jobs.Reports
  rw [ht]
  exact h

/-- One operation of the units. -/
theorem Jobs.Reports.tele' (h : Jobs.Reports set j0 j) {f : TeleEnv → Tele → Tele}
    (hf : Tele.Keeps set.alerts j.tele (f (teleEnv e j) j.tele)) : Jobs.Reports set j0 (j.tele' f e) :=
  Tele.Keeps.trans h hf

theorem Jobs.Reports.raise (h : Jobs.Reports e.set j0 j) (k : CondKind) : Jobs.Reports e.set j0 (j.raise e k) :=
  h.tele' (Tele.keeps_raise (teleEnv e j) k j.tele)

theorem Jobs.Reports.clear (h : Jobs.Reports e.set j0 j) (k : CondKind) : Jobs.Reports e.set j0 (j.clear e k) :=
  h.tele' (Tele.keeps_clear (teleEnv e j) k j.tele)

theorem Jobs.Reports.keep (h : Jobs.Reports e.set j0 j) (k : CondKind) (b : Bool) :
    Jobs.Reports e.set j0 (j.keep e k b) := by
  unfold Jobs.keep
  split
  · exact h.raise k
  · exact h.clear k

theorem Jobs.Reports.raiseWhen (h : Jobs.Reports e.set j0 j) (k : CondKind) (b : Bool) :
    Jobs.Reports e.set j0 (j.raiseWhen e k b) := by
  unfold Jobs.raiseWhen
  split
  · exact h.raise k
  · exact h

/-- What tellings do. -/
theorem Jobs.Reports.moves (h : Jobs.Reports e.set j0 j) (hm : Jobs.Moves false e j j') : Jobs.Reports e.set j0 j' :=
  h.trans ⟨fun ⟨ha, hp⟩ => ⟨hm.alertFollows ha, hm.pulseFollows hp⟩, hm.bounds⟩

/-- A fold of changes. -/
theorem Jobs.Reports.foldl {β : Type} (f : Jobs → β → Jobs) (l : List β)
    (hf : ∀ {j : Jobs} (b : β), Jobs.Reports set j0 j → Jobs.Reports set j0 (f j b)) (h : Jobs.Reports set j0 j) :
    Jobs.Reports set j0 (l.foldl f j) := by
  induction l generalizing j with
  | nil => exact h
  | cons b l ih => exact ih (hf b h)

/-! ## Reported states and timeouts (R63, R71 to R77) -/

theorem Jobs.Reports.endFlight (f : Flight) (r : CmdResult) (h : Jobs.Reports e.set j0 j) :
    Jobs.Reports e.set j0 (j.endFlight e f r) :=
  (h.same (j' := { j with flight := j.flight.filter (fun g => g.idx != f.idx) })).moves
    (Jobs.Moves.refl.fenceTest.tellOrigin ..)

theorem Jobs.Reports.lostTest (h : Jobs.Reports e.set j0 j) : Jobs.Reports e.set j0 (j.lostTest e) := by
  unfold Jobs.lostTest
  split
  · exact h
  · exact h.clear _

theorem Jobs.Reports.setReported (i : Nat) (c : StateCode) (d : Nat) (u : Option Nat) (h : Jobs.Reports e.set j0 j) :
    Jobs.Reports e.set j0 (j.setReported e i c d u) := by
  unfold Jobs.setReported
  dsimp only
  split
  · exact (h.same (j' := Jobs.updateAct ..)).lostTest
  · exact h.same

theorem Jobs.Reports.setFault (i : Nat) (f : ActFault) (h : Jobs.Reports set j0 j) :
    Jobs.Reports set j0 (j.setFault i f) := h.same

theorem Jobs.Reports.unjam (i : Nat) (h : Jobs.Reports set j0 j) : Jobs.Reports set j0 (j.unjam i) := by
  unfold Jobs.unjam
  split
  · exact h.setFault ..
  · exact h

theorem Jobs.Reports.statusReport (i : Nat) (c : StateCode) (d : Nat) (u : Option Nat) (h : Jobs.Reports e.set j0 j) :
    Jobs.Reports e.set j0 (j.statusReport e i c d u) := by
  have reported := h.setReported i c d u
  have told : ∀ {k : Jobs}, Jobs.Reports e.set j0 k → Jobs.Reports e.set j0 (k.tellDiscord e i) := fun hk => by
    unfold Jobs.tellDiscord
    split <;> exact hk.same
  unfold Jobs.statusReport
  dsimp only
  split
  · exact reported
  · exact told ((reported.same (j' := Jobs.updateAct ..)).raise _)

theorem Jobs.Reports.answered (f : Flight) (c : StateCode) (d : Nat) (h : Jobs.Reports e.set j0 j) :
    Jobs.Reports e.set j0 (j.answered e f c d) := by
  unfold Jobs.answered
  split
  · exact h.endFlight ..
  · exact h.endFlight ..
  · exact h.endFlight ..
  · split
    · exact (h.unjam _).endFlight ..
    · split
      · exact h.same
      · split
        · exact (h.setFault ..).endFlight ..
        · exact h.endFlight ..

theorem Jobs.Reports.ackItem (i : Nat) (x : Slot) (h : Jobs.Reports e.set j0 j) :
    Jobs.Reports e.set j0 (j.ackItem e i x) := by
  unfold Jobs.ackItem
  split
  · exact h
  · split
    · split
      · exact (h.setReported ..).answered ..
      · exact h.statusReport ..
    · exact h.statusReport ..

theorem Jobs.Reports.positionStatus (f : Flight) (b : Bool) (c : StateCode) (h : Jobs.Reports e.set j0 j) :
    Jobs.Reports e.set j0 (j.positionStatus e f b c) := by
  unfold Jobs.positionStatus
  split
  · exact (h.unjam _).endFlight ..
  · split
    · exact (h.setFault ..).endFlight ..
    · exact h

theorem Jobs.Reports.statusItem (i : Nat) (x : Slot) (h : Jobs.Reports e.set j0 j) :
    Jobs.Reports e.set j0 (j.statusItem e i x) := by
  unfold Jobs.statusItem
  split
  · exact h
  · next code _ =>
    have reported : ∀ units, Jobs.Reports e.set j0 (match j.flightOf i with
        | some f =>
            match f.action with
            | .position opened => (j.setReported e i code x.field2 units).positionStatus e f opened code
            | _ => j.statusReport e i code x.field2 units
        | none => j.statusReport e i code x.field2 units) := by
      intro units
      split
      · split
        · exact (h.setReported ..).positionStatus ..
        · exact h.statusReport ..
      · exact h.statusReport ..
    dsimp only
    split
    · exact (reported _).same
    · exact reported _

theorem Jobs.Reports.ackTimeout (i : Nat) (h : Jobs.Reports e.set j0 j) : Jobs.Reports e.set j0 (j.ackTimeout e i) := by
  unfold Jobs.ackTimeout
  split
  · exact h
  · split
    · exact h
    · exact ((h.same (j' := Jobs.updateAct _ _ (Jobs.count ..))).raise _).endFlight ..

theorem Jobs.Reports.travelTimeout (i : Nat) (h : Jobs.Reports e.set j0 j) :
    Jobs.Reports e.set j0 (j.travelTimeout e i) := by
  unfold Jobs.travelTimeout
  split
  · exact h
  · split
    · exact (h.same (j' := Jobs.updateAct ..)).endFlight ..
    · exact h

theorem Jobs.Reports.restExpiry (i : Nat) (h : Jobs.Reports set j0 j) : Jobs.Reports set j0 (j.restExpiry i) := by
  unfold Jobs.restExpiry
  split
  · exact h.same
  · exact h

theorem Jobs.Reports.runSecond (h : Jobs.Reports set j0 j) : Jobs.Reports set j0 (j.runSecond e) :=
  Jobs.Reports.foldl _ _ (fun i hi => by split; exacts [hi.same, hi]) h

theorem Jobs.Reports.issue (i : Nat) (a : Action) (o : Origin) (h : Jobs.Reports e.set j0 j) :
    Jobs.Reports e.set j0 (j.issue e i a o) :=
  (h.same (j' := Jobs.count _ (Jobs.updateAct ..))).moves Jobs.Moves.refl.itemsLeft

/-! ## The operator path (R78) -/

theorem Jobs.Reports.operatorQueue (i : Nat) (x : OperatorItem) (h : Jobs.Reports e.set j0 j) :
    Jobs.Reports e.set j0 (j.operatorQueue e i x) := by
  have queued := h.moves (Jobs.Moves.refl.enqueue .operator i x.action)
  unfold Jobs.operatorQueue
  split
  · next hp =>
    rw [hp] at queued
    split
    · exact queued
    · exact (queued.same (j' := Jobs.updateAct ..)).moves (Jobs.Moves.refl.tellHold i true)
  · next hp =>
    rw [hp] at queued
    dsimp only
    split
    · exact queued.moves ((Jobs.Moves.refl.refuseFull ..).withdrawOperator i)
    · exact queued.moves (Jobs.Moves.refl.refuseFull ..)

theorem Jobs.Reports.postOperator (n : Nat) (h : Jobs.Reports e.set j0 j) :
    Jobs.Reports e.set j0 (j.postOperator e n) := by
  unfold Jobs.postOperator
  dsimp only
  split
  · exact h.same
  · exact (h.same (j' := Jobs.updateClaim ..)).moves Jobs.Moves.refl.pass

theorem Jobs.Reports.operatorStart (i : Nat) (x : OperatorItem) (h : Jobs.Reports e.set j0 j) :
    Jobs.Reports e.set j0 (j.operatorStart e i x) := by
  unfold Jobs.operatorStart
  split
  · exact h.moves (Jobs.Moves.refl.refuse ..)
  · dsimp only
    split
    · exact (h.postOperator _).moves ((Jobs.Moves.refl.refuse ..).withdrawOperator i)
    · exact (h.postOperator _).operatorQueue ..

theorem Jobs.Reports.operatorItem (i : Nat) (x : OperatorItem) (h : Jobs.Reports e.set j0 j) :
    Jobs.Reports e.set j0 (j.operatorItem e i x) := by
  unfold Jobs.operatorItem
  split
  · exact h.moves (Jobs.Moves.refl.endHold ..)
  · split
    · exact h.moves (Jobs.Moves.refl.refuse ..)
    · split
      · exact h.operatorStart ..
      · exact h.operatorQueue ..

theorem Jobs.Reports.operatorFence (h : Jobs.Reports e.set j0 j) : Jobs.Reports e.set j0 (j.operatorFence e) := by
  have joined := h.moves (Jobs.Moves.refl.join (.fence false))
  unfold Jobs.operatorFence
  split
  · next hp => rw [hp] at joined; exact joined.moves Jobs.Moves.refl.fenceTest
  · next k hp => rw [hp] at joined; exact (joined.same (j' := k.countRefusal)).raise _

/-! ## The other blocks' own effects -/

theorem Jobs.Reports.faultPump (n : Nat) (f : ActFault) (h : Jobs.Reports e.set j0 j) :
    Jobs.Reports e.set j0 (j.faultPump e n f) := by
  unfold Jobs.faultPump
  split
  · exact h.moves (Jobs.Moves.refl.endRun _)
  · exact (h.setFault ..).moves ((Jobs.Moves.refl.raise _ rfl).endRun _)

theorem Jobs.Reports.proveExpiry (n : Nat) (h : Jobs.Reports e.set j0 j) :
    Jobs.Reports e.set j0 (j.proveExpiry e n) := by
  have stopped : Jobs.Reports e.set j0 (j.updateRun n fun r => { r with prove := none }) :=
    h.moves (Jobs.Moves.refl.updateRun ..)
  unfold Jobs.proveExpiry
  dsimp only
  split
  · exact h
  · split
    · split
      · exact (stopped.faultPump ..).moves (Jobs.Moves.refl.fillEvaluate _)
      · exact stopped.moves (Jobs.Moves.refl.updateRun ..)
    · exact stopped

theorem Jobs.Reports.dryExpiry (n : Nat) (h : Jobs.Reports e.set j0 j) : Jobs.Reports e.set j0 (j.dryExpiry e n) := by
  have stopped : Jobs.Reports e.set j0 (j.updateRun n fun r => { r with dry := none }) :=
    h.moves (Jobs.Moves.refl.updateRun ..)
  unfold Jobs.dryExpiry
  split
  · exact h
  · exact (stopped.faultPump ..).moves (Jobs.Moves.refl.fillEvaluate _)

theorem Jobs.Reports.blindStartExpiry (h : Jobs.Reports e.set j0 j) : Jobs.Reports e.set j0 (j.blindStartExpiry e) := by
  unfold Jobs.blindStartExpiry
  split
  · exact h
  · exact (h.same (j' := Jobs.guarding ..)).moves (Jobs.Moves.refl.guardEvaluate _)

theorem Jobs.Reports.heaterProveExpiry (z : Nat) (h : Jobs.Reports e.set j0 j) :
    Jobs.Reports e.set j0 (j.heaterProveExpiry e z) := by
  have failed : ∀ {k : Jobs}, Jobs.Reports e.set j0 k → ∀ f,
      Jobs.Reports e.set j0 (((k.updateZone z f).raise e .heaterFail).zoneEvaluate e z) := fun hk f =>
    hk.moves (((Jobs.Moves.refl.updateZone z f).raise .heaterFail rfl).zoneEvaluate z)
  unfold Jobs.heaterProveExpiry Jobs.failHeater
  split
  · dsimp only
    split
    · exact failed h _
    · exact failed (h.setFault ..) _
  · exact h

theorem Jobs.Reports.splitExpiry (h : Jobs.Reports e.set j0 j) : Jobs.Reports e.set j0 (j.splitExpiry e) := by
  unfold Jobs.splitExpiry
  split
  · exact (h.same (j' := { j with level := { j.level with split := none } })).raise _
  · exact h

theorem Jobs.Reports.clearFault (i : Nat) (h : Jobs.Reports set j0 j) : Jobs.Reports set j0 (j.clearFault e i) := by
  refine h.same ?_
  unfold Jobs.clearFault
  split
  · rfl
  · dsimp only
    split
    · rfl
    · rfl
    · rfl
    · split <;> rfl

theorem Jobs.Reports.releaseTrip (h : Jobs.Reports e.set j0 j) : Jobs.Reports e.set j0 (j.releaseTrip e).1 := by
  unfold Jobs.releaseTrip
  split
  · exact h
  · split
    · have released := h.same (j' := (j.guarding (fun g =>
        { g with latch := false, pumpDemand := false, inletDemand := false, drainDemand := none,
                 band := e.set.guard.reached j.level.guard })).askWord)
      exact ((((released.clear .overflowTrip).clear .overflowInhibit).clear .overflowNear).moves
        (Jobs.Moves.refl.guardGroup _)).same
    · exact h

/-- R157, R152: every effect of a command on the blocks. -/
theorem Jobs.Effect.reports (h : Jobs.Effect e j j') : Jobs.Reports e.set j j' := by
  have h0 := Jobs.Reports.refl e.set j
  have report : ∀ {f : TeleEnv → Tele → Tele}, (∀ v t, Tele.Same t (f v t)) → (∀ v t, t.Bounds → (f v t).Bounds) →
      Jobs.Reports e.set j (j.tele' f e) := fun hs hb => h0.tele' (.of_same (hs ..) (hb _ _))
  cases h with
  | raise k => exact h0.raise k
  | clear k => exact h0.clear k
  | acknowledge k => exact h0.tele' (Tele.keeps_acknowledge (teleEnv e j) k j.tele)
  | urgentSent => exact (report Tele.same_urgentSent fun v _ hb => hb.urgentSent v).clear _
  | openedSent => exact (report Tele.same_openedSent fun v _ hb => hb.openedSent v).clear _
  | pulseExpiry => exact h0.tele' (Tele.keeps_pulseExpiry ..)
  | minimumExpiry i => exact report (fun v => Tele.same_minimumExpiry v i) fun v _ hb => hb.minimumExpiry v i
  | maximumExpiry i => exact report (fun v => Tele.same_maximumExpiry v i) fun v _ hb => hb.maximumExpiry v i
  | packHoldExpiry c => exact report (fun _ => Tele.same_packHoldExpiry c) fun _ _ hb => hb.packHoldExpiry c
  | issue => exact h0.issue ..
  | statusItem => exact h0.statusItem ..
  | ackItem => exact h0.ackItem ..
  | operatorItem => exact h0.operatorItem ..
  | operatorFence => exact h0.operatorFence
  | ackTimeout => exact h0.ackTimeout _
  | travelTimeout => exact h0.travelTimeout _
  | restExpiry => exact h0.restExpiry _
  | holdExpiry => exact h0.moves (Jobs.Moves.refl.endHold ..)
  | proveExpiry => exact h0.proveExpiry _
  | dryExpiry => exact h0.dryExpiry _
  | blindStartExpiry => exact h0.blindStartExpiry
  | heaterProveExpiry => exact h0.heaterProveExpiry _
  | splitExpiry => exact h0.splitExpiry
  | clearFault => exact h0.clearFault _
  | takeStore => exact h0.same
  | releaseTrip => exact h0.releaseTrip

end Sys2Proof.Machine
end

section
/-!
PROOFS. The alert line over effects that move the time, the settings or a head, over the resets, and over whole steps (spec/09 R157,
R158). The bounds of the Report unit come along: only a POLICY write needs more than the settings that it leaves.
The proofs are elaborated one after the other, which keeps the whole text inside the sandbox's memory.
-/

set_option Elab.async false

namespace Sys2Proof.Machine

variable {set new : Settings} {e : Env} {j0 j j' : Jobs} {p q : Part} {s t : State}

/-! ## Time and heads (spec/02, spec/05) -/

theorem Jobs.Reports.tariffChange (a c : Env) (h : Jobs.Reports set j0 j) : Jobs.Reports set j0 (j.tariffChange a c) := by
  unfold Jobs.tariffChange
  split
  · exact h
  · exact h.same

theorem Jobs.Reports.leftStale (was : HeadState) (h : Jobs.Reports e.set j0 j) :
    Jobs.Reports e.set j0 (j.leftStale e was) := by
  unfold Jobs.leftStale
  split
  · exact h.keep ..
  · exact h

theorem Jobs.reports_tick (p : Part) : Jobs.Reports p.1.set p.2 (tick p).2 := by
  have ran : ∀ e, Jobs.Reports p.1.set p.2 (p.2.runSecond e) := fun e => (Jobs.Reports.refl ..).runSecond
  unfold tick
  dsimp only
  split
  · exact ((ran _).tariffChange ..).same
  · exact ran _

/-- R84: a TIME item clears the two conditions of the clock. -/
theorem Jobs.reports_clockItem (t : TimeOfWeek) (p : Part) : Jobs.Reports p.1.set p.2 (clockItem t p).2 := by
  have jumped : Jobs.Reports p.1.set p.2 (p.2.countJump p.1.clock t) := by
    unfold Jobs.countJump
    split <;> exact Jobs.Reports.same (.refl ..)
  exact (Jobs.Reports.tariffChange _ _ (Jobs.Reports.clear (e := p.1.setTime t)
    (Jobs.Reports.clear (e := p.1.setTime t) jumped .clockUnset) .clockStale)).same

theorem Jobs.reports_clockStaleExpiry (p : Part) : Jobs.Reports p.1.set p.2 (clockStaleExpiry p).2 := by
  unfold clockStaleExpiry
  split
  · exact Jobs.Reports.tariffChange _ _ (Jobs.Reports.raise
      (e := { p.1 with clock := { p.1.clock with stale := none, state := .drifting } }) (.refl ..) .clockStale)
  · exact .refl ..

/-- R31: what follows a head's arrival, whatever it writes of the head's record. -/
theorem Jobs.reports_leftStale (a : Nat) (f : HeadRuntime → HeadRuntime) (was : HeadState) (p : Part) :
    Jobs.Reports p.1.set p.2 (p.2.leftStale (p.1.updateHead a f) was) := by
  have left := Jobs.Reports.leftStale (e := p.1.updateHead a f) was (.refl _ p.2)
  rwa [Env.updateHead_set] at left

theorem Jobs.reports_heard (bs : List Byte) (p : Part) : Jobs.Reports p.1.set p.2 (heard bs p).2 := by
  unfold heard
  dsimp only
  split
  · dsimp only
    split
    · exact Jobs.reports_leftStale ..
    · exact .refl ..
  · exact .refl ..

theorem Jobs.reports_takeItem (a : Nat) (x : SampleItem) (p : Part) : Jobs.Reports p.1.set p.2 (takeItem a x p).2 := by
  have left := fun f was => Jobs.reports_leftStale a f was p
  unfold takeItem
  split
  · exact .refl ..
  · unfold takeValue
    dsimp only
    split
    · exact (left ..).same
    · exact left ..
  · exact (left ..).same

theorem Jobs.reports_staleExpiry (a : Nat) (p : Part) : Jobs.Reports p.1.set p.2 (staleExpiry a p).2 := by
  have unusable : ∀ h, Jobs.Reports p.1.set p.2 (p.2.unusable h) := fun _ => (Jobs.Reports.refl ..).same
  unfold staleExpiry
  split
  · dsimp only
    split
    · exact unusable _
    · exact Env.updateHead_set a _ p.1 ▸ Jobs.Reports.keep (Env.updateHead_set a _ p.1 ▸ unusable _) ..
  · exact .refl ..

/-! ## What the owners of a table do at a write (R176) -/

theorem Jobs.Reports.zonesWritten (before : Settings) (h : Jobs.Reports e.set j0 j) :
    Jobs.Reports e.set j0 (j.zonesWritten e before) := by
  refine Jobs.Reports.same (j := j.leaveHeaters e before) (Jobs.Reports.foldl _ _ (fun {k} z hk => ?_) h)
  unfold Jobs.leaveHeater
  split
  · exact hk
  · split
    · exact hk
    · dsimp only
      split
      · exact (hk.same (j' := Jobs.updateZone ..)).moves (Jobs.Moves.refl.request ..)
      · exact hk.same

theorem Jobs.reports_headWritten (a : Nat) (old : HeadSettings) (p : Part) :
    Jobs.Reports p.1.set p.2 (headWritten a old p).2 := by
  have disabled : ∀ h, Jobs.Reports p.1.set p.2 (disableHead a h p).2 := fun h =>
    Env.updateHead_set a _ p.1 ▸ Jobs.Reports.keep (Env.updateHead_set a _ p.1 ▸ (Jobs.Reports.refl ..).same) ..
  unfold Sys2Proof.Machine.headWritten
  dsimp only
  split
  · exact .refl ..
  · exact (Jobs.Reports.refl ..).same
  · exact disabled _
  · split
    · exact (disabled _).same
    · split
      · exact (Jobs.Reports.refl ..).same
      · exact .refl ..

theorem Jobs.reports_tellHeads (before : Settings) (a : Nat) (p : Part) :
    Jobs.Reports p.1.set p.2 (tellHeads before a p).2 := by
  have hset : (Sys2Proof.Machine.headWritten a (before.head a) p).1.set = p.1.set :=
    (Part.kept_headWritten (live := p.1.set) a (before.head a) p).set
  have written := Jobs.reports_headWritten a (before.head a) p
  rw [← hset] at written ⊢
  refine Jobs.Reports.zonesWritten _ ?_
  split
  · exact (written.moves Jobs.Moves.refl.incumbents).same
  · exact written

theorem Jobs.Reports.cancelUnsent (i : Nat) (h : Jobs.Reports e.set j0 j) : Jobs.Reports e.set j0 (j.cancelUnsent e i) := by
  refine Jobs.Reports.foldl _ _ (fun {k} x hk => ?_) (h.same (j' := { j with queue := j.queue.filter (fun x => !x.isFor i) }))
  cases x with
  | cmd k a o => exact hk.moves (Jobs.Moves.refl.cancel ..)
  | fence g => exact hk

theorem Jobs.Reports.entryChanged (before : Settings) (i : Nat) (h : Jobs.Reports e.set j0 j) :
    Jobs.Reports e.set j0 (j.entryChanged e before i) := by
  have left : Jobs.Reports e.set j0 (((j.cancelUnsent e i).abandon i).itemsLeft e) :=
    ((h.cancelUnsent i).same (j' := Jobs.abandon i _)).moves Jobs.Moves.refl.itemsLeft
  have claim : ∀ {k : Jobs}, Jobs.Reports e.set j0 k → Jobs.Reports e.set j0 (match before.pumpNumber i with
      | none => k
      | some n => if (k.claim (n - 1)).operator then
          (k.updateClaim (n - 1) (fun c => { c with operator := false })).startPass else k) := fun hk => by
    split
    · exact hk
    · split
      · exact hk.same
      · exact hk
  have zone : ∀ (lost : Bool) {k : Jobs}, Jobs.Reports e.set j0 k →
      Jobs.Reports e.set j0 (match (before.heaterZone i).or (e.set.heaterZone i) with
      | none => k
      | some z => k.updateZone z (Zone.entryMoved lost)) := fun lost k hk => by
    split
    · exact hk
    · exact hk.same
  unfold Jobs.entryChanged
  dsimp only
  split
  · exact (zone _ (claim (left.same (j' := Jobs.updateAct ..)))).moves (Jobs.Moves.refl.request ..)
  · exact zone _ (claim (left.same (j' := Jobs.updateAct ..)))

theorem Jobs.Reports.actuatorWritten (before : Settings) (i : Nat) (h : Jobs.Reports e.set j0 j) :
    Jobs.Reports e.set j0 (j.actuatorWritten e before i) := by
  have told : ∀ {k : Jobs}, Jobs.Reports e.set j0 k → Jobs.Reports e.set j0 ((((k.lostTest e).incumbents e).tell
      (actuatorTold before e.set i)).zonesWritten e before) := fun hk =>
    ((hk.lostTest.moves Jobs.Moves.refl.incumbents).same (j' := Jobs.tell ..)).zonesWritten before
  unfold Jobs.actuatorWritten
  dsimp only
  split
  · exact told (h.entryChanged ..)
  · exact told h

theorem Jobs.guardWritten_tele (e : Env) (before : Settings) (j : Jobs) : (j.guardWritten e before).tele = j.tele := by
  have flag : ∀ (k : HeadKind) (was now : Option Nat) (i : Jobs), (match e.set.knownKind k with
      | none => i
      | some a => if was.isSome && was != now then i.clearSuspect a else i).tele = i.tele := by
    intro k was now i
    split
    · rfl
    · split
      · unfold Jobs.clearSuspect
        split <;> rfl
      · rfl
  unfold Jobs.guardWritten
  dsimp only
  split <;> exact (flag ..).trans (flag ..)

theorem Jobs.Reports.zoneWritten (before : Settings) (i : Nat) (h : Jobs.Reports e.set j0 j) :
    Jobs.Reports e.set j0 (j.zoneWritten e before i) := by
  have left : ∀ {k : Jobs}, Jobs.Reports e.set j0 k → Jobs.Reports e.set j0 (k.leaveHeaters e before) := fun hk =>
    (hk.zonesWritten before).same
  unfold Jobs.zoneWritten
  split
  · exact h.same
  · dsimp only
    split
    · exact (left h).same
    · exact (left (h.same (j' := Jobs.updateZone ..))).same

/-- R176: the owners of the tables but POLICY and CONDITIONS, told of a write; `p` has the settings that it leaves. -/
theorem Jobs.reports_ownerTold {t : Table} (hpolicy : t ≠ .policy) (hconds : t ≠ .conditions) (i g : Nat)
    (before : Settings) (p : Part) : Jobs.Reports p.1.set p.2 (ownerTold t i g before p).2 := by
  have h0 := Jobs.Reports.refl p.1.set p.2
  unfold ownerTold
  dsimp only
  cases t with
  | policy => exact absurd rfl hpolicy
  | conditions => exact absurd rfl hconds
  | general =>
    dsimp only
    split
    · exact h0
    · split <;> exact h0.same
  | heads => exact Jobs.reports_tellHeads ..
  | actuators => exact h0.actuatorWritten ..
  | tariff => exact h0.tariffChange ..
  | strapping =>
    dsimp only
    split
    · exact h0
    · exact h0.same
  | guard => exact h0.same (Jobs.guardWritten_tele ..)
  | zones => exact h0.zoneWritten ..
  | allotment => exact (h0.tariffChange ..).same

/-- R176: only a CONDITIONS write changes the alert settings. -/
theorem writeTable_alerts {t : Table} {i g : Nat} {d : List Byte} (ht : t ≠ .conditions)
    (hw : writeTable set t i g d = some new) : new.alerts = set.alerts := by
  have kept : ∀ {ok : Bool} {s' : Settings}, taken ok s' = some new → s'.alerts = set.alerts →
      new.alerts = set.alerts := fun h hs => (taken_eq_some h).2 ▸ hs
  unfold writeTable at hw
  cases t with
  | conditions => exact absurd rfl ht
  | general | allotment => dsimp only [writeGeneral] at hw; (repeat' split at hw) <;> exact kept hw rfl
  | strapping | policy => dsimp only [writeStrapping, writePolicy] at hw; split at hw <;> exact kept hw rfl
  | heads | actuators | tariff | guard | zones =>
    dsimp only [writeHead, writeActuator, writeTariff, writeGuard, writeShared, writeZone] at hw
    (repeat' split at hw) <;> first | exact kept hw rfl | cases hw

/-! ## Effects of a command -/

/-- The alert line follows its rule under the settings in force. -/
def Part.Follows (p : Part) : Prop := p.2.tele.Follows p.1.set.alerts

/-- A change that leaves the settings in force. -/
theorem Part.Follows.of_reports (h : p.Follows) (hset : q.1.set = p.1.set) (hr : Jobs.Reports p.1.set p.2 q.2) :
    q.Follows := by
  unfold Part.Follows
  rw [hset]
  exact hr.follows h

theorem Part.Follows.takeWrite {t : Table} {i g : Nat} {d : List Byte} (h : p.Follows)
    (hw : writeTable p.1.set t i g d = some new) : (takeWrite t i g new p).Follows := by
  have hset : (Sys2Proof.Machine.takeWrite t i g new p).1.set = new :=
    (Part.kept_ownerTold (live := new) t i g p.1.set ({ p.1 with set := new }, p.2)).set
  by_cases hconds : t = .conditions
  · subst hconds
    exact Tele.Follows.alertsWritten (v := teleEnv { p.1 with set := new } p.2) h
  have start : Part.Follows ({ p.1 with set := new }, p.2) := by
    show p.2.tele.Follows new.alerts
    rw [writeTable_alerts hconds hw]
    exact h
  by_cases hpolicy : t = .policy
  · subst hpolicy
    exact Tele.Follows.of_same start (Tele.same_policyWritten ..)
  · exact start.of_reports hset (Jobs.reports_ownerTold hpolicy hconds ..)

theorem Part.Effect.follows (h : Part.Effect p q) (hp : p.Follows) : q.Follows := by
  cases h with
  | jobs h => exact hp.of_reports rfl h.reports
  | idle => exact hp
  | tick => exact hp.of_reports (Part.kept_tick (live := p.1.set) p).set (Jobs.reports_tick p)
  | clockItem t => exact hp.of_reports rfl (Jobs.reports_clockItem t p)
  | clockStaleExpiry =>
    exact hp.of_reports (Part.kept_clockStaleExpiry (live := p.1.set) p).set (Jobs.reports_clockStaleExpiry p)
  | heard bs => exact hp.of_reports (Part.kept_heard (live := p.1.set) bs p).set (Jobs.reports_heard bs p)
  | takeItem a x => exact hp.of_reports (Part.kept_takeItem (live := p.1.set) a x p).set (Jobs.reports_takeItem a x p)
  | staleExpiry a => exact hp.of_reports (Part.kept_staleExpiry (live := p.1.set) a p).set (Jobs.reports_staleExpiry a p)
  | write hw => exact hp.takeWrite hw

/-! ## Resets (R155, R171, R178, R179) -/

theorem Jobs.Reports.resetTaken (h : Jobs.Reports e.set j0 j) : Jobs.Reports e.set j0 (j.resetTaken e) := by
  have due : Jobs.Reports e.set j0 ((j.queryAll e).tele' (fun v t => t.allDue v) e) :=
    (h.moves (Jobs.moves_queryAll false e j)).tele' (.of_same (Tele.same_allDue ..) fun hb => hb.allDue _)
  exact (due.moves (Jobs.Moves.firstEvaluations _)).moves (Jobs.moves_settle ..)

/-- R155: the units as a restart sets them up, with the notices posted, follow the rule, within the bounds. -/
theorem Tele.restarted_repost (v : TeleEnv) (unset : Bool) (t : Tele) :
    ((t.restarted v unset).repost v).Follows v.alerts ∧ ((t.restarted v unset).repost v).Bounds :=
  ⟨(Tele.follows_restarted v unset t).of_same (Tele.same_repost ..), (Tele.bounds_restarted v unset t).repost v⟩

/-- R155, R178: what a restart sets up follows the rule of the settings that it puts in force, within the bounds. -/
theorem State.restart_reports (set : Settings) (s : State) :
    (s.restart set).part.Follows ∧ (s.restart set).jobs.tele.Bounds := by
  have start : ∀ (e : Env) (j : Jobs) (unset : Bool),
      (j.tele' (fun v t => (t.restarted v unset).repost v) e).tele.Follows e.set.alerts
        ∧ (j.tele' (fun v t => (t.restarted v unset).repost v) e).tele.Bounds := by
    intro e j unset
    rw [Jobs.tele'_tele]
    exact Tele.restarted_repost (teleEnv e j) unset j.tele
  have h : Jobs.Reports _ _ (s.restart set).jobs :=
    (((Jobs.Reports.refl (s.env.restarted set).set _).raiseWhen ..).raiseWhen ..).tariffChange .. |>.resetTaken
  exact ⟨h.follows (start ..).1, h.bounds (start ..).2⟩

/-- R155, R179: so does what power-on sets up. -/
theorem State.powerUp_reports (s : State) :
    s.powerUp.jobs.tele.Follows s.powerUp.env.set.alerts ∧ s.powerUp.jobs.tele.Bounds := by
  unfold State.powerUp
  dsimp only [State.creditWatch_jobs, State.creditWatch_env]
  generalize Env.atPowerOn s.jobs.store.survive.loaded = e
  have h : Jobs.Reports e.set (Jobs.atPowerOn e s.jobs.store.survive s.jobs.choices) _ :=
    (((Jobs.Reports.refl ..).raise .clockUnset).raiseWhen .overflowTrip s.jobs.store.survive.word).raiseWhen
      .settingsLost (!s.jobs.store.survive.valid) |>.resetTaken
  exact ⟨h.follows (Tele.Follows.powerOn _), h.bounds Tele.Bounds.powerOn⟩

/-! ## Steps -/

/-- The alert line of the whole part. -/
theorem State.Move.follows (hm : State.Move s t) (h : s.part.Follows) : t.part.Follows := by
  cases hm with
  | change f hf => exact (hf.follows h).of_reports rfl ((Jobs.Reports.refl ..).moves (Jobs.moves_complete ..))
  | settled => exact h.of_reports rfl ((Jobs.Reports.refl ..).moves (Jobs.moves_settle ..))
  | restart set => exact (s.restart_reports set).1
  | loop | count | store | lock => exact h

end Sys2Proof.Machine

open Sys2Proof Sys2Proof.Machine

/-- Settles O5: every move of which a step consists keeps the line's rule under the settings in force (`State.Move.follows`); the
pulse premise bars the one expiry that would release the line (`Tele.Follows.pulseExpiry`). -/
theorem stepKeepsAlertLine : Obligations.StepKeepsAlertLine := fun _ _ hline hpulse h =>
  step_induction (P := fun s => s.part.Follows) (fun _ _ => id) (fun s _ => s.powerUp_reports.1)
    (fun _ _ => Tele.Follows.powerOn _) State.Move.follows h ⟨hline, hpulse⟩
end

section
/-!
PROOFS. The bounds of the Report unit over whole steps (spec/09 R152, spec/10 R163 to R165). A POLICY write is where the checks of
R173 count: the entry that it makes due is one of the 24 that there are. `State.Move` forgets those checks, so the commands are
followed here with them (`State.Within.carryOut`).
The proofs are elaborated one after the other, which keeps the whole text inside the sandbox's memory.
-/

set_option Elab.async false

namespace Sys2Proof.Machine

variable {port : Port} {r : Request} {bs : List Byte} {s t : State}

/-- The Report unit is within its bounds. -/
def State.Within (s : State) : Prop := s.jobs.tele.Bounds

/-! ## Changes and what they cause -/

theorem State.Within.changeBounds (h : s.Within) {f : Part → Part}
    (hf : s.jobs.tele.Bounds → (f s.part).2.tele.Bounds) : (s.change f).Within := (Jobs.moves_complete ..).bounds (hf h)

theorem State.Within.change (h : s.Within) {f : Part → Part} (hf : Jobs.Reports s.env.set s.jobs (f s.part).2) :
    (s.change f).Within := h.changeBounds hf.bounds

theorem State.Within.work (h : s.Within) {f : Env → Jobs → Jobs} (hf : Jobs.Effect s.env s.jobs (f s.env s.jobs)) :
    (s.work f).Within := State.Within.change (f := fun q => (q.1, f q.1 q.2)) h hf.reports

theorem State.Within.foldl {β : Type} (f : State → β → State) (l : List β)
    (hf : ∀ {s : State} (b : β), s.Within → (f s b).Within) (h : s.Within) : (l.foldl f s).Within := by
  induction l generalizing s with
  | nil => exact h
  | cons b l ih => exact ih (hf b h)

theorem State.Within.loop (h : s.Within) (l : Loop) : ({ s with loop := l } : State).Within := h

theorem State.Within.count (h : s.Within) (f : Counters → Counters) : (s.tally (Jobs.count f)).Within := h

theorem State.Within.stored (h : s.Within) (f : Jobs → Store → Store) : (s.tally fun j => j.stored (f j)).Within := h

theorem State.Within.countBad (h : s.Within) (p : Port) : (s.tally (Jobs.countBad p)).Within := by
  cases p <;> exact h

theorem State.Within.offer (h : s.Within) (p : Port) (bs : List Byte) : (s.offer p bs).Within := by
  have counted : ∀ b, (s.jobs.countDisplaced b).tele.Bounds := fun b => by cases b <;> exact h
  exact counted _

theorem State.Within.settled (h : s.Within) : s.settled.Within := (Jobs.moves_settle ..).bounds h

/-! ## Requests (spec/11) -/

theorem State.Within.answer (h : s.Within) (r : Request) (res : Result) (d : List Byte) : (s.answer r res d).Within :=
  h.offer ..

/-- R173, R175: a WRITE_ENTRY to the Policy Table that passes every check names one of its 24 entries. -/
theorem policy_index_of_firstFailure {e : Env} {j : Jobs} (hok : firstFailure e j r = none) (hk : r.kind = 2)
    (ht : tableOf r.id = some .policy) : r.index < 24 := by
  have hindex : indexOk e j r = true := by
    unfold firstFailure at hok
    iterate 3 (split at hok; · cases hok)
    split at hok
    · cases hok
    · next hi => simpa using hi
  unfold indexOk at hindex
  simp only [hk, ht] at hindex
  by_contra hlt
  simp [entryGroup, readTable, hlt] at hindex

/-- R176: a write that is taken keeps the bounds. -/
theorem Part.bounds_takeWrite {t : Table} {i : Nat} (hi : t = .policy → i < 24) (g : Nat) (new : Settings) {p : Part}
    (h : p.2.tele.Bounds) : (takeWrite t i g new p).2.tele.Bounds := by
  by_cases hpolicy : t = .policy
  · subst hpolicy
    exact h.policyWritten (teleEnv { p.1 with set := new } p.2) _ (hi rfl)
  by_cases hconds : t = .conditions
  · subst hconds
    exact h.alertsWritten (teleEnv { p.1 with set := new } p.2) _
  exact (Jobs.reports_ownerTold hpolicy hconds i g p.1.set ({ p.1 with set := new }, p.2)).bounds h

theorem State.Within.carryOut (h : s.Within) (hok : firstFailure s.env s.jobs r = none) : (s.carryOut r).Within := by
  unfold State.carryOut
  split
  · exact h.answer ..
  · next hk =>
    split
    · next t new ht _ =>
      have index : t = .policy → r.index < 24 := fun hp => policy_index_of_firstFailure hok hk (hp ▸ ht)
      exact (h.changeBounds (f := takeWrite t r.index r.group new) (Part.bounds_takeWrite (p := s.part) index _ _)).answer ..
    · exact h
  · exact h.answer ..
  · split
    · next k _ => exact (h.work (f := fun e j => j.tele' (fun v t => t.acknowledge v k) e) (.acknowledge k)).answer ..
    · exact h
  · exact (h.work (.clearFault _)).answer ..
  · exact h.work (.takeStore r)
  · unfold State.recall
    split
    · exact (s.restart_reports _).2
    · exact h.answer ..
  · exact (s.restart_reports _).2
  · exact State.Within.answer (s := s.setLock true) h ..
  · exact State.Within.answer (s := s.setLock false) h ..
  · exact (h.work .releaseTrip).answer ..
  · exact h

theorem State.Within.manage (h : s.Within) (p : Port) (bs : List Byte) : (s.manage p bs).Within := by
  unfold State.manage
  split
  · exact h
  · split
    · exact h.answer ..
    · next hok => exact h.carryOut hok

/-! ## Arrivals (spec/01) -/

theorem State.Within.forwardUp (h : s.Within) (bs : List Byte) : (s.forwardUp bs).Within := by
  unfold State.forwardUp
  split
  · exact h.offer ..
  · exact h

theorem State.Within.takeSample (h : s.Within) (bs : List Byte) : (s.takeSample bs).Within := by
  unfold State.takeSample
  split
  · exact .foldl _ _ (fun {s} x hs => hs.change (Jobs.reports_takeItem _ x s.part)) h
  · exact h.countBad .field

theorem State.Within.takeStatus (h : s.Within) (bs : List Byte) : (s.takeStatus bs).Within := by
  unfold State.takeStatus
  split
  · exact .foldl _ _ (fun x hs => hs.work (.statusItem _ x)) h
  · exact h

theorem State.Within.takeAck (h : s.Within) (bs : List Byte) : (s.takeAck bs).Within := by
  unfold State.takeAck
  split
  · exact .foldl _ _ (fun x hs => hs.work (.ackItem _ x)) h
  · exact h.countBad .field

theorem State.Within.classifyField (h : s.Within) (bs : List Byte) : (s.classifyField bs).Within := by
  unfold State.classifyField
  dsimp only
  split
  · exact (h.takeSample bs).forwardUp bs
  · split
    · exact (h.takeStatus bs).forwardUp bs
    · split
      · split
        · exact h.takeAck bs
        · split
          · exact h.manage ..
          · exact h.countBad .field
      · split
        · exact h
        · exact h.offer ..

theorem State.Within.takeClock (h : s.Within) (bs : List Byte) : (s.takeClock bs).Within := by
  unfold State.takeClock
  split
  · exact h.countBad .line
  · next t _ => exact h.change (f := clockItem t) (Jobs.reports_clockItem t s.part)

theorem State.Within.takeCredit (h : s.Within) (bs : List Byte) : (s.takeCredit bs).Within := by
  unfold State.takeCredit
  split
  · exact h
  · exact h.countBad .line

theorem State.Within.classifyLine (h : s.Within) (bs : List Byte) : (s.classifyLine bs).Within := by
  unfold State.classifyLine
  dsimp only
  split
  · split
    · exact .foldl _ _ (fun x hs => hs.work (.operatorItem _ x)) h
    · exact h
  · split
    · exact h
    · split
      · exact h.work .operatorFence
      · split
        · exact (h.takeClock bs).offer ..
        · split
          · exact h.takeClock bs
          · split
            · exact h.takeCredit bs
            · split
              · exact h.manage ..
              · split
                · exact h.countBad .line
                · split
                  · exact h
                  · exact h.offer ..

theorem State.Within.goodArrival (h : s.Within) (p : Port) : (s.goodArrival p).Within := by
  cases p with
  | line => exact h
  | field => exact ((h.loop _).count _).work (f := fun e j => j.clear e .loopNoise) (.clear _)

theorem State.Within.badArrival (h : s.Within) (p : Port) : (s.badArrival p).Within := by
  cases p with
  | line => exact h.countBad .line
  | field =>
    unfold State.badArrival
    dsimp only
    split
    · exact ((h.countBad .field).loop _).work (f := fun e j => j.raise e .loopNoise) (.raise _)
    · exact h.countBad .field

theorem State.Within.arrive (h : s.Within) (p : Port) (bs : List Byte) : (s.arrive p bs).Within := by
  unfold State.arrive
  split
  · cases p with
    | field => exact ((h.goodArrival .field).change (Jobs.reports_heard bs _)).classifyField bs
    | line => exact (h.goodArrival .line).classifyLine bs
  · exact h.badArrival p

/-! ## Sends (spec/01) -/

theorem State.Within.lineArbiter (h : s.Within) : s.lineArbiter.Within := by
  have report : s.sendReport.Within :=
    ((h.loop _).loop _).work (f := fun e j => (j.tele' (fun v t => t.openedSent v) e).clear e .lineStalled) .openedSent
  unfold State.lineArbiter
  split
  · split
    · exact ((h.loop _).loop _).work (f := fun e j => (j.tele' (fun v t => t.urgentSent v) e).clear e .lineStalled)
        .urgentSent
    · unfold State.sendRoutine
      split
      · split
        · exact report
        · exact (((h.loop _).count _).loop _).work (f := fun e j => (j.tele' (fun _ t => t) e).clear e .lineStalled)
            (.clear _)
      · exact report
  · exact h

theorem State.Within.fieldArbiter (h : s.Within) : s.fieldArbiter.Within := by
  unfold State.fieldArbiter
  split
  · exact h
  · split
    · next i a o hr => exact (h.loop _).work (f := fun e j => j.issue e i a o) (.issue hr)
    · split
      · exact (h.loop _).count _
      · exact h

/-! ## The other commands -/

theorem State.Within.storeCompletes (h : s.Within) : s.storeCompletes.Within := by
  have answered : s.answerStore.Within := by
    unfold State.answerStore
    split
    · exact h
    · exact h.offer ..
  unfold State.storeCompletes
  split
  · exact ((answered.count _).work (f := fun e j => j.clear e .settingsLost) (.clear _)).stored
      fun j => Store.completed j.guard.latch
  · exact h

theorem State.Within.creditWaitExpiry (h : s.Within) : s.creditWaitExpiry.Within := by
  unfold State.creditWaitExpiry
  split
  · exact (h.loop _).work (f := fun e j => j.raise e .lineStalled) (.raise _)
  · exact h

/-- What waits for the settings store begins, when it may. -/
theorem State.Within.beginNext (h : s.Within) (waits : Bool) :
    (if waits then s.tally (fun j => j.stored (Store.beginNext s.env.set j.guard.latch)) else s).Within := by
  split <;> exact h

/-- Every effect of a command keeps the bounds. -/
theorem State.Within.effect (h : s.Within) (c : Instr) : (effectOf c s).Within := by
  cases c
  case powerOn | powerLoss => exact h
  case deferredStoreBegin => exact h.beginNext s.jobs.store.waiting
  case latchWordWriteDeferred => exact h.beginNext s.jobs.store.writeAsked
  case latchWordWriteCompletion => exact h.stored fun j => Store.wordWritten s.env.set j.guard.latch
  case storeCompletion => exact h.storeCompletes
  case transmitCompletion p => cases p <;> exact h
  case lPortSendBegin => exact h.lineArbiter
  case fPortSendBegin => exact h.fieldArbiter
  case secondTick => exact h.change (Jobs.reports_tick s.part)
  case minuteBoundary =>
    refine h.change (f := minuteTick) ?_
    unfold minuteTick
    split
    · exact Jobs.reports_tick s.part
    · exact .refl ..
  case creditWaitExpiry => exact h.creditWaitExpiry
  case staleTimerExpiry a => exact h.change (Jobs.reports_staleExpiry a s.part)
  case clockStaleExpiry => exact h.change (Jobs.reports_clockStaleExpiry s.part)
  case splitTimerExpiry => exact h.work .splitExpiry
  case restTimerExpiry i => exact h.work (.restExpiry i)
  case ackTimeoutExpiry i => exact h.work (.ackTimeout i)
  case valveTravelExpiry i => exact h.work (.travelTimeout i)
  case holdTimerExpiry i => exact h.work (.holdExpiry i)
  case proveTimerExpiry n => exact h.work (.proveExpiry n)
  case dryTimerExpiry n => exact h.work (.dryExpiry n)
  case blindStartTimerExpiry => exact h.work .blindStartExpiry
  case heaterProveTimerExpiry z => exact h.work (.heaterProveExpiry z)
  case pulseTimerExpiry => exact h.work .pulseExpiry
  case minimumTimerExpiry i => exact h.work (.minimumExpiry i)
  case maximumTimerExpiry i => exact h.work (.maximumExpiry i)
  case packHoldExpiry c => exact h.work (.packHoldExpiry c)
  all_goals exact h.arrive ..

theorem exec_within {c : Instr} (h : exec c s = .next t) (hs : s.Within) : t.Within := by
  rw [exec_eq] at h
  cases h
  split
  · exact s.powerUp_reports.2
  · split
    · exact Tele.Bounds.powerOn
    · unfold State.powerCommand
      split
      · exact hs.settled.effect c
      · exact hs

end Sys2Proof.Machine

open Sys2Proof Sys2Proof.Machine

/-- Settles O9: the blocks' effects keep the bounds (`Jobs.Effect.reports`), and a POLICY write is taken only to an entry that the
table has (`policy_index_of_firstFailure`). -/
theorem stepKeepsReportBounds : Obligations.StepKeepsReportBounds := by
  intro s t hs h
  have within : s.Within := s.jobs.tele.bounded_iff.mp hs
  refine t.jobs.tele.bounded_iff.mpr ?_
  unfold step at h
  split at h
  · cases h; exact within
  · exact exec_within h within
end

section
/-!
PROOFS. Raise, clear and acknowledgement of a condition (spec/09 R149, R150, R154): each writes the kind's own entry, and reporting
the change (R152, R153) moves no more than the pending and the queued marks.
The proofs are elaborated one after the other, which keeps the whole text inside the sandbox's memory.
-/

set_option Elab.async false

namespace Sys2Proof.Machine

variable {v : TeleEnv} {t u : Tele} {k : CondKind}

/-! ## What reporting leaves of the Condition Table -/

/-- An entry but for report pending and the queued mark. -/
def Cond.marks (c : Cond) : Bool × Bool × Nat × Option TimeOfWeek × Option TimeOfWeek :=
  (c.active, c.acked, c.occurrences, c.first, c.last)

/-- The Condition Table but for report pending and the queued marks. -/
def Tele.marks (t : Tele) : List (Bool × Bool × Nat × Option TimeOfWeek × Option TimeOfWeek) := t.conds.map Cond.marks

theorem Tele.cond_marks (t : Tele) (k : CondKind) : (t.cond k).marks = t.marks.getD k.code Cond.powerOn.marks := by
  unfold Tele.cond Tele.marks
  rw [List.getD_eq_getElem?_getD, List.getD_eq_getElem?_getD, List.getElem?_map]
  cases t.conds[k.code]? <;> rfl

theorem Tele.marks_updateCond (k : CondKind) (f : Cond → Cond) (t : Tele)
    (hf : ∀ c, (f c).marks = c.marks := by exact fun _ => rfl) : (t.updateCond k f).marks = t.marks :=
  updateAt_map _ _ _ _ hf

@[simp] theorem Tele.marks_policyPacked (v : TeleEnv) (i : Nat) (t : Tele) : (t.policyPacked v i).marks = t.marks := rfl

@[simp] theorem Tele.marks_noticePacked (n : Notice) (t : Tele) : (t.noticePacked n).marks = t.marks := by
  cases n with
  | condition k => exact Tele.marks_updateCond ..
  | _ => rfl

theorem Tele.marks_packRoutine (h : t.packRoutine v = some u) : u.marks = t.marks := by
  have taken : ∀ {c r}, packOne v c t = some r → r.2.marks = t.marks := fun hr => by
    rcases packOne_packed hr with ⟨i, hi⟩ | ⟨n, hn⟩
    · rw [hi, Tele.marks_policyPacked]
    · rw [hn, Tele.marks_noticePacked]
  unfold Tele.packRoutine at h
  split at h <;>
  · obtain ⟨r, hr, rfl⟩ := Option.map_eq_some_iff.mp h
    exact taken hr

theorem Tele.marks_packUrgent (h : t.packUrgent = some u) : u.marks = t.marks := by
  unfold Tele.packUrgent at h
  split at h
  · cases h
  · split at h
    · cases h
      exact Tele.marks_updateCond ..
    · cases h

@[simp] theorem Tele.marks_pack (v : TeleEnv) (t : Tele) : (t.pack v).marks = t.marks := by
  have loop : ∀ {step : Tele → Option Tele}, (∀ {t u}, step t = some u → u.marks = t.marks) →
      ∀ n t, (packLoop step n t).marks = t.marks := fun h n t =>
    packLoop_keeps (fun t u => u.marks = t.marks) (fun _ => rfl) (fun h h' => h'.trans h) h n t
  exact (loop Tele.marks_packRoutine ..).trans (loop Tele.marks_packUrgent ..)

@[simp] theorem Tele.marks_dropOldest (t : Tele) : t.dropOldest.marks = t.marks := by
  unfold Tele.dropOldest
  split
  · rfl
  · split
    · exact Tele.marks_updateCond ..
    · rfl

@[simp] theorem Tele.marks_postNotice (v : TeleEnv) (n : Notice) (t : Tele) : (t.postNotice v n).marks = t.marks := by
  refine (Tele.marks_pack v _).trans ?_
  show (if t.notices.length ≥ Config.noticeMax then t.dropOldest else t).marks = t.marks
  split
  · exact t.marks_dropOldest
  · rfl

/-- R152, R153: reporting a change writes no mark of any entry. -/
@[simp] theorem Tele.marks_report (v : TeleEnv) (k : CondKind) (t : Tele) : (t.report v k).marks = t.marks := by
  have joined : (t.joinUrgent k).marks = t.marks := by unfold Tele.joinUrgent; split <;> rfl
  unfold Tele.report
  split
  · exact (Tele.marks_pack ..).trans joined
  · unfold Tele.noticeKind
    split
    · rfl
    · exact (Tele.marks_postNotice ..).trans (Tele.marks_updateCond ..)

/-! ## The entry that a change writes -/

/-- The marks after a change of one entry that is then reported; `u` has the table so changed. -/
theorem Tele.report_marks {f : Cond → Cond} (hlen : t.conds.length = 22) (hu : u.conds = (t.updateCond k f).conds) :
    ((u.report v k).cond k).marks = (f (t.cond k)).marks
      ∧ ∀ m, m ≠ k → ((u.report v k).cond m).marks = (t.cond m).marks := by
  have changed : (u.report v k).marks = (t.updateCond k f).marks :=
    (Tele.marks_report ..).trans (congrArg (List.map Cond.marks) hu)
  have entry : ∀ m, ((u.report v k).cond m).marks = ((t.updateCond k f).cond m).marks := fun m => by
    rw [Tele.cond_marks, changed, ← Tele.cond_marks]
  refine ⟨?_, fun m hm => ?_⟩
  · rw [entry, Tele.cond_updateCond_self f k t hlen]
  · rw [entry, Tele.cond_updateCond_ne f t hm]

theorem Tele.conds_deriveAlert (v : TeleEnv) (t : Tele) : (t.deriveAlert v).conds = t.conds := by
  unfold Tele.deriveAlert
  split <;> rfl

theorem Tele.conds_alertOnRaise (v : TeleEnv) (k : CondKind) (t : Tele) : (t.alertOnRaise v k).conds = t.conds := by
  unfold Tele.alertOnRaise
  split
  · exact t.conds_deriveAlert v
  · split <;> rfl

/-- R149: a raise of an inactive kind. -/
theorem Tele.raise_marks (hlen : t.conds.length = 22) (ha : (t.cond k).active = false) :
    ((t.raise v k).cond k).marks = (true, false, min 255 ((t.cond k).occurrences + 1), some v.tow, some v.tow)
      ∧ ∀ m, m ≠ k → ((t.raise v k).cond m).marks = (t.cond m).marks := by
  unfold Tele.raise
  rw [if_neg (by rw [ha]; decide)]
  dsimp only
  refine Tele.report_marks hlen (f := fun c => { c with
    active := true, acked := false, occurrences := min 255 (c.occurrences + 1), pending := true,
    first := some v.tow, last := some v.tow }) ?_
  split
  · exact Tele.conds_alertOnRaise ..
  · rfl

/-- R150: a clear finds nothing to do. -/
theorem Tele.clear_idle (h : (t.cond k).active = false ∨ (k = .overflowTrip ∧ v.latch = true)) : t.clear v k = t :=
  if_pos (by simpa using h)

/-- R150: a clear of an active kind, but for OVERFLOW_TRIP while the latch is set. -/
theorem Tele.clear_marks (hlen : t.conds.length = 22) (ha : (t.cond k).active = true)
    (hl : ¬ (k = .overflowTrip ∧ v.latch = true)) :
    ((t.clear v k).cond k).marks = (false, (t.cond k).acked, (t.cond k).occurrences, (t.cond k).first, some v.tow)
      ∧ ∀ m, m ≠ k → ((t.clear v k).cond m).marks = (t.cond m).marks := by
  unfold Tele.clear
  rw [if_neg (by simpa [ha] using hl)]
  dsimp only
  refine Tele.report_marks hlen (f := fun c => { c with active := false, pending := true, last := some v.tow }) ?_
  split
  · exact Tele.conds_deriveAlert ..
  · rfl

/-- R154: an acknowledgement finds nothing to do. -/
theorem Tele.acknowledge_idle (h : (t.cond k).active = false ∨ (t.cond k).acked = true) : t.acknowledge v k = t :=
  if_pos (by simpa using h)

/-- R154: an acknowledgement of an active, unacknowledged kind. -/
theorem Tele.acknowledge_marks (hlen : t.conds.length = 22) (ha : (t.cond k).active = true)
    (hk : (t.cond k).acked = false) :
    ((t.acknowledge v k).cond k).marks = ((t.cond k).active, true, (t.cond k).occurrences, (t.cond k).first, some v.tow)
      ∧ ∀ m, m ≠ k → ((t.acknowledge v k).cond m).marks = (t.cond m).marks := by
  unfold Tele.acknowledge
  rw [if_neg (by simp [ha, hk])]
  dsimp only
  refine Tele.report_marks hlen (f := fun c => { c with acked := true, pending := true, last := some v.tow }) ?_
  split
  · exact Tele.conds_deriveAlert ..
  · rfl

end Sys2Proof.Machine

open Sys2Proof Sys2Proof.Machine

/-- Settles O52: each of the three changes one entry and reports it (`Tele.report_marks`), or finds nothing to do. -/
theorem conditionMoves : Obligations.ConditionMoves := by
  intro v t k hlen
  refine ⟨fun ha => if_pos ha, fun ha => ?_, Tele.clear_idle, fun ha hl => Tele.clear_marks hlen ha hl,
    Tele.acknowledge_idle, fun ha hk => ?_⟩
  · obtain ⟨hself, hothers⟩ := Tele.raise_marks (v := v) hlen ha
    exact ⟨hself, hothers, fun hu => Tele.carries_raise v hu ha⟩
  · obtain ⟨hself, hothers⟩ := Tele.acknowledge_marks (v := v) hlen ha hk
    exact ⟨hself.trans (by rw [ha]), hothers⟩
end

section
/-!
PROOFS. Packing (spec/10 R165 to R169): which source the cells take next, and that what waits is taken one item after the other
until nothing eligible is left. The bounds of the two packing loops are the room of the cells, so that neither loop ends before that.
The proofs are elaborated one after the other, which keeps the whole text inside the sandbox's memory.
-/

set_option Elab.async false

namespace Sys2Proof.Machine

variable {v : TeleEnv} {t u : Tele} {c : ReportCell} {k : CondKind} {n : Notice}

/-! ## Repeated packings -/

section Loop

variable {step : Tele → Option Tele} {room : Tele → Nat}

/-- A packing that uses up room has come to its end once it has been repeated as often as there is room. -/
theorem packLoop_succ (hroom : ∀ {t u}, step t = some u → room u < room t) (n : Nat) (t : Tele) (h : room t ≤ n) :
    packLoop step (n + 1) t = packLoop step n t := by
  induction n generalizing t with
  | zero =>
    unfold packLoop
    split
    · rfl
    · next u hu => exact absurd (hroom hu) (by omega)
  | succ n ih =>
    rw [packLoop, packLoop]
    split
    · rfl
    · next u hu =>
      have := hroom hu
      exact ih u (by omega)

/-- One packing first. -/
theorem packLoop_of_step (hroom : ∀ {t u}, step t = some u → room u < room t) {n : Nat} (h : room t ≤ n)
    (hs : step t = some u) : packLoop step n t = packLoop step n u := by
  have less := hroom hs
  obtain ⟨n, rfl⟩ := Nat.exists_eq_add_one_of_ne_zero (show n ≠ 0 by omega)
  rw [packLoop_succ hroom n u (by omega), packLoop, hs]

theorem packLoop_of_none (n : Nat) (hs : step t = none) : packLoop step n t = t := by
  cases n with
  | zero => rfl
  | succ n => rw [packLoop, hs]

end Loop

/-! ## The urgent assembler (R167) -/

/-- R167: the urgent cell takes the kind. -/
def Tele.UrgentTakes (t : Tele) (k : CondKind) : Prop := t.urgent.items.length < 3 ∧ t.urgent.hasKind k = false

theorem ReportCell.room_iff : c.room = true ↔ c.items.length < 3 := decide_eq_true_iff

theorem Tele.packUrgent_takes {rest : List CondKind} (hd : t.urgentDue = k :: rest) (hk : t.UrgentTakes k) :
    t.packUrgent = some (Tele.kindPacked k { t with
      urgentDue := rest
      urgent := { t.urgent with items := t.urgent.items ++ [t.condItem k], ready := true } }) := by
  unfold Tele.packUrgent
  rw [hd]
  exact if_pos (by rw [ReportCell.room_iff.mpr hk.1, hk.2]; rfl)

theorem Tele.packUrgent_none_iff :
    t.packUrgent = none ↔ ∀ k rest, t.urgentDue = k :: rest → ¬ t.UrgentTakes k := by
  constructor
  · intro h k rest hd hk
    rw [Tele.packUrgent_takes hd hk] at h
    cases h
  · intro h
    unfold Tele.packUrgent
    split
    · rfl
    · next k rest hd =>
      refine if_neg fun hc => h k rest hd ?_
      simpa [Tele.UrgentTakes, ReportCell.room_iff] using hc

/-- R167: each item uses up room of the urgent cell. -/
theorem Tele.urgentRoom_packUrgent (h : t.packUrgent = some u) : 3 - u.urgent.items.length < 3 - t.urgent.items.length := by
  unfold Tele.packUrgent at h
  split at h
  · cases h
  · split at h
    · next hc =>
      cases h
      have hlt : t.urgent.items.length < 3 := ReportCell.room_iff.mp (by simp_all)
      simp only [Tele.kindPacked, Tele.updateCond, List.length_append, List.length_singleton]
      omega
    · cases h

/-! ## The routine assembler (R165, R166, R168, R169) -/

/-- R165: a routine cell takes the notice. -/
theorem ReportCell.takesNotice_iff :
    c.takesNotice n = true ↔ c.items.length < 3 ∧ ∀ k, n = .condition k → c.hasKind k = false := by
  cases n <;> simp [ReportCell.takesNotice, ReportCell.room_iff]

/-- R165: a routine cell takes the policy entry. -/
theorem ReportCell.takesPolicy_iff {i : Nat} : c.takesPolicy i = true ↔ c.items.length < 3 ∧ c.hasPolicy i = false := by
  simp [ReportCell.takesPolicy, ReportCell.room_iff]

/-- R168: the item in the cell, the cell's READY mark and its pack hold. -/
theorem ReportCell.packRoutine_eq (v : TeleEnv) (x : ReportItem) (c : ReportCell) : c.packRoutine v x =
    if 3 ≤ (c.items ++ [x]).length then { items := c.items ++ [x], ready := true, hold := none }
    else if c.items ≠ [] then { c with items := c.items ++ [x] }
    else if v.packHold = 0 then { items := c.items ++ [x], ready := true, hold := none }
    else { items := c.items ++ [x], ready := false, hold := some (v.now + v.packHold) } := by
  unfold ReportCell.packRoutine
  refine if_congr Iff.rfl rfl ?_
  cases hc : c.items <;> rfl

/-- R166: the head notice goes first. -/
theorem packOne_notice {rest : List Notice} (hn : t.notices = n :: rest) (hc : c.takesNotice n = true) :
    packOne v c t = some (c.packRoutine v (t.noticeItem n), t.noticePacked n) := by
  unfold packOne
  rw [hn]
  exact if_pos hc

/-- R166: without an eligible notice the oldest eligible due entry goes. -/
theorem packOne_due (hn : ∀ n rest, t.notices = n :: rest → ¬ c.takesNotice n = true) :
    packOne v c t = (oldestDue c t.due).map fun i =>
      (c.packRoutine v (.policy i (packed (v.figure i))), t.policyPacked v i) := by
  have due : ∀ o : Option Nat, (match o with
      | some i => some (c.packRoutine v (.policy i (packed (v.figure i))), t.policyPacked v i)
      | none => none) = o.map fun i => (c.packRoutine v (.policy i (packed (v.figure i))), t.policyPacked v i) := by
    intro o
    cases o <;> rfl
  unfold packOne
  cases hnotices : t.notices with
  | nil => exact due _
  | cons n rest =>
    dsimp only
    rw [if_neg (hn n rest hnotices)]
    exact due _

/-- A packing into a cell that has room makes the cell one item longer, and moves no other cell. -/
theorem packOne_grows {r : ReportCell × Tele} (h : packOne v c t = some r) :
    c.items.length < 3 ∧ r.1.items.length = c.items.length + 1 ∧ r.2.opened = t.opened ∧ r.2.ahead = t.ahead := by
  by_cases hn : ∀ n rest, t.notices = n :: rest → ¬ c.takesNotice n = true
  · rw [packOne_due hn] at h
    obtain ⟨i, hi, rfl⟩ := Option.map_eq_some_iff.mp h
    exact ⟨ReportCell.room_lt (oldestDue_some hi).1, ReportCell.packRoutine_length .., rfl, rfl⟩
  · push Not at hn
    obtain ⟨n, rest, hnotices, hc⟩ := hn
    rw [packOne_notice hnotices hc] at h
    cases h
    refine ⟨(ReportCell.takesNotice_iff.mp hc).1, ReportCell.packRoutine_length .., ?_, ?_⟩ <;> cases n <;> rfl

/-- R166, R169: the routine cell that takes the next item. -/
def Tele.nextCell (t : Tele) : ReportCell := if t.opened.items.length < 3 then t.opened else t.ahead.getD .empty

/-- R166, R169: the routine cell put back. -/
def Tele.putCell (t : Tele) (c : ReportCell) (u : Tele) : Tele :=
  if t.opened.items.length < 3 then { u with opened := c } else { u with ahead := some c }

theorem Tele.packRoutine_eq (v : TeleEnv) (t : Tele) :
    t.packRoutine v = (packOne v t.nextCell t).map fun r => t.putCell r.1 r.2 := by
  unfold Tele.packRoutine Tele.nextCell Tele.putCell ReportCell.full ReportCell.room
  by_cases h : t.opened.items.length < 3 <;> simp [h, Config.cellItemMax]

/-- The room of the two routine cells. -/
def Tele.routineRoom (t : Tele) : Nat := (3 - t.opened.items.length) + (3 - (t.ahead.getD .empty).items.length)

theorem Tele.routineRoom_packRoutine (h : t.packRoutine v = some u) : u.routineRoom < t.routineRoom := by
  rw [Tele.packRoutine_eq] at h
  obtain ⟨r, hr, rfl⟩ := Option.map_eq_some_iff.mp h
  obtain ⟨hroom, hlen, hopened, hahead⟩ := packOne_grows hr
  unfold Tele.nextCell at hroom hlen
  unfold Tele.routineRoom Tele.putCell
  split <;> simp_all <;> omega

/-- The routine assembler leaves the urgent list and cell. -/
theorem Tele.packUrgent_packRoutine (h : t.packRoutine v = some u) (hu : t.packUrgent = none) : u.packUrgent = none := by
  rw [Tele.packRoutine_eq] at h
  obtain ⟨r, hr, rfl⟩ := Option.map_eq_some_iff.mp h
  obtain ⟨hdue, hurgent⟩ := packOne_urgent hr
  have put : (t.putCell r.1 r.2).urgentDue = r.2.urgentDue ∧ (t.putCell r.1 r.2).urgent = r.2.urgent := by
    unfold Tele.putCell
    split <;> exact ⟨rfl, rfl⟩
  rw [Tele.packUrgent_none_iff] at hu ⊢
  unfold Tele.UrgentTakes at hu ⊢
  rw [put.1, put.2, hdue, hurgent]
  exact hu

/-! ## One item of a packing -/

theorem Tele.pack_urgent (hu : t.packUrgent = some u) : t.pack v = u.pack v := by
  unfold Tele.pack
  rw [packLoop_of_step (room := fun t => 3 - t.urgent.items.length) Tele.urgentRoom_packUrgent (Nat.sub_le ..) hu]

theorem Tele.pack_routine (hu : t.packUrgent = none) (hr : t.packRoutine v = some u) : t.pack v = u.pack v := by
  have room : t.routineRoom ≤ 6 := Nat.add_le_add (Nat.sub_le ..) (Nat.sub_le ..)
  unfold Tele.pack
  rw [packLoop_of_none 3 hu, packLoop_of_none 3 (Tele.packUrgent_packRoutine hr hu),
    packLoop_of_step Tele.routineRoom_packRoutine room hr]

theorem Tele.pack_idle (hu : t.packUrgent = none) (hr : t.packRoutine v = none) : t.pack v = t := by
  unfold Tele.pack
  rw [packLoop_of_none 3 hu, packLoop_of_none 6 hr]

/-- R163, R165: the oldest eligible entry, and the list once it has left. -/
theorem oldestDue_append {before after : List Nat} {i : Nat} (hi : c.takesPolicy i = true)
    (hb : ∀ k ∈ before, ¬ c.takesPolicy k = true) :
    oldestDue c (before ++ i :: after) = some i ∧ (before ++ i :: after).erase i = before ++ after := by
  have hnot : i ∉ before := fun hm => hb i hm hi
  refine ⟨?_, ?_⟩
  · unfold oldestDue
    rw [List.find?_append, List.find?_eq_none.mpr hb, Option.none_or, List.find?_cons_of_pos hi]
  · rw [List.erase_append_right _ hnot, List.erase_cons_head]

/-- R165, R166: the head notice goes into the cell that is open to it. -/
theorem Tele.pack_notice {rest : List Notice} (hu : t.packUrgent = none) (hn : t.notices = n :: rest)
    (hc : t.nextCell.takesNotice n = true) :
    t.pack v = (t.putCell (t.nextCell.packRoutine v (t.noticeItem n)) (t.noticePacked n)).pack v :=
  Tele.pack_routine hu (by rw [Tele.packRoutine_eq, packOne_notice hn hc]; rfl)

/-- R165, R166: without an eligible notice the oldest eligible due entry does. -/
theorem Tele.pack_due {before after : List Nat} {i : Nat} (hu : t.packUrgent = none)
    (hn : ∀ n rest, t.notices = n :: rest → ¬ t.nextCell.takesNotice n = true) (hd : t.due = before ++ i :: after)
    (hi : t.nextCell.takesPolicy i = true) (hb : ∀ k ∈ before, ¬ t.nextCell.takesPolicy k = true) :
    t.pack v = (t.putCell (t.nextCell.packRoutine v (.policy i (packed (v.figure i)))) (t.policyPacked v i)).pack v := by
  refine Tele.pack_routine hu ?_
  rw [Tele.packRoutine_eq, packOne_due hn, hd, (oldestDue_append hi hb).1]
  rfl

/-- R165: nothing that waits is eligible. -/
theorem Tele.pack_none (hu : t.packUrgent = none)
    (hn : ∀ n rest, t.notices = n :: rest → ¬ t.nextCell.takesNotice n = true)
    (hi : ∀ i ∈ t.due, ¬ t.nextCell.takesPolicy i = true) : t.pack v = t := by
  refine Tele.pack_idle hu ?_
  rw [Tele.packRoutine_eq, packOne_due hn, oldestDue, List.find?_eq_none.mpr hi]
  rfl

end Sys2Proof.Machine
end

section
/-!
PROOFS. The timers of the Condition and Report units (spec/09 R158, spec/10 R162, R168, R169): on a settled part each expiry is an
operation of these units that causes nothing else.
The proofs are elaborated one after the other, which keeps the whole text inside the sandbox's memory.
-/

set_option Elab.async false

namespace Sys2Proof.Machine

variable {v : TeleEnv} {t : Tele} {s : State} {i : Nat}

/-- The part with the Condition and Report units given, once a command ends (R14). -/
def State.becomes (s : State) (t : Tele) : Host.Outcome State Fault Refusal :=
  .next ({ s with jobs := { s.jobs with tele := t } } : State).creditWatch

/-- An expiry that is an operation of the Condition and Report units, and raises or clears no ACTUATOR_DISCORD. -/
theorem exec_teleExpiry {c : Instr} {f : TeleEnv → Tele → Tele} (hs : s.Ready) (hc : effectOf c = State.work (Jobs.tele' f))
    (hon : c ≠ .powerOn) (hoff : c ≠ .powerLoss)
    (hf : ∀ v t, (f v t).flags .actuatorDiscord = t.flags .actuatorDiscord) :
    exec c s = s.becomes (f (teleEnv s.env s.jobs) s.jobs.tele) := by
  have quiet := State.work_tele hs.2 (Jobs.tele' f) rfl
    (congrArg Prod.fst (hf (teleEnv s.env s.jobs) s.jobs.tele))
  rw [exec_ready hs hon hoff, hc, quiet]
  rfl

theorem exec_pulseTimerExpiry (hs : s.Ready) : exec .pulseTimerExpiry s = s.becomes s.jobs.tele.pulseExpiry :=
  exec_teleExpiry (f := fun _ t => t.pulseExpiry) hs rfl nofun nofun fun _ t => by
    unfold Tele.pulseExpiry
    split <;> rfl

theorem exec_minimumTimerExpiry (hs : s.Ready) (i : Nat) :
    exec (.minimumTimerExpiry i) s = s.becomes (s.jobs.tele.minimumExpiry (teleEnv s.env s.jobs) i) :=
  exec_teleExpiry (f := fun v t => t.minimumExpiry v i) hs rfl nofun nofun
    fun v t => (t.same_minimumExpiry v i).flags _

theorem exec_maximumTimerExpiry (hs : s.Ready) (i : Nat) :
    exec (.maximumTimerExpiry i) s = s.becomes (s.jobs.tele.maximumExpiry (teleEnv s.env s.jobs) i) :=
  exec_teleExpiry (f := fun v t => t.maximumExpiry v i) hs rfl nofun nofun
    fun v t => (t.same_maximumExpiry v i).flags _

theorem exec_packHoldExpiry (hs : s.Ready) (c : RoutineCell) :
    exec (.packHoldExpiry c) s = s.becomes (s.jobs.tele.packHoldExpiry c) :=
  exec_teleExpiry (f := fun _ t => t.packHoldExpiry c) hs rfl nofun nofun fun _ t => (t.same_packHoldExpiry c).flags _

/-! ## The timers of a policy entry (R161, R162) -/

/-- R163: an entry that is not due becomes due. -/
theorem Tele.becomeDue_idle (h : (t.policy i).due = false) : t.becomeDue i =
    Tele.updatePolicy i (fun p => { p with due := true }) { t with due := t.due ++ [i] } :=
  if_neg (by rw [h]; decide)

theorem Tele.becomeDue_due (h : (t.policy i).due = true) : t.becomeDue i = t := if_pos h

/-- An entry with a timer that runs is one of the table. -/
theorem Tele.policy_lt (h : t.policy i ≠ .powerOn) : i < t.policies.length := by
  by_contra hl
  exact h (List.getD_eq_default _ _ (Nat.le_of_not_lt hl))

/-- R161: the figure has moved past the deadband of entry `i`. -/
def Tele.Moved (v : TeleEnv) (i : Nat) (t : Tele) : Prop :=
  match (t.policy i).last, v.figure i with
  | none, _ => True
  | some last, none => last ≠ -8388608
  | some last, some f => last = -8388608 ∨ (v.policyAt i).deadband < (f - last).natAbs

theorem Tele.moved_iff :
    moveTest (t.policy i).last (v.figure i) (v.policyAt i).deadband = true ↔ t.Moved v i := by
  unfold moveTest Tele.Moved
  cases (t.policy i).last with
  | none => simp
  | some last =>
    cases v.figure i with
    | none => simp [Config.noneMark]
    | some f =>
      by_cases hl : last = -8388608 <;> simp [Config.noneMark, hl]

theorem Tele.minimumExpiry_stopped (h : (t.policy i).minTimer = none) : t.minimumExpiry v i = t :=
  if_neg (by rw [h]; decide)

/-- R162: the move test is made on the record as it stood but for the timer. -/
theorem Tele.minimumExpiry_running (h : (t.policy i).minTimer ≠ none) :
    let stopped := t.updatePolicy i (fun p => { p with minTimer := none })
    (t.Moved v i → (t.policy i).due = false → t.minimumExpiry v i
        = (Tele.updatePolicy i (fun p => { p with due := true }) { stopped with due := stopped.due ++ [i] }).pack v)
      ∧ ((¬ t.Moved v i ∨ (t.policy i).due = true) → t.minimumExpiry v i = stopped.pack v) := by
  intro stopped
  have hi : i < t.policies.length := Tele.policy_lt fun he => h (by rw [he]; rfl)
  have record : stopped.policy i = { t.policy i with minTimer := none } := t.policy_updatePolicy_self _ hi
  have expires : t.minimumExpiry v i = (if !(t.policy i).due && moveTest (t.policy i).last (v.figure i)
      (v.policyAt i).deadband then stopped.becomeDue i else stopped).pack v := by
    unfold Tele.minimumExpiry
    rw [if_pos (Option.isSome_iff_ne_none.mpr h)]
    show (if !(stopped.policy i).due && moveTest (stopped.policy i).last (v.figure i) (v.policyAt i).deadband then
      stopped.becomeDue i else stopped).pack v = _
    rw [record]
  rw [expires]
  refine ⟨fun hm hd => ?_, fun hn => ?_⟩
  · rw [if_pos (by rw [hd, Tele.moved_iff.mpr hm]; rfl), Tele.becomeDue_idle (by rw [record]; exact hd)]
  · rw [if_neg]
    rw [Bool.and_eq_true, Tele.moved_iff]
    rintro ⟨hd, hm⟩
    rcases hn with hn | hn
    · exact hn hm
    · rw [hn] at hd; cases hd

theorem Tele.maximumExpiry_stopped (h : (t.policy i).maxTimer = none) : t.maximumExpiry v i = t :=
  if_neg (by rw [h]; decide)

theorem Tele.maximumExpiry_running (h : (t.policy i).maxTimer ≠ none) :
    let stopped := t.updatePolicy i (fun p => { p with maxTimer := none })
    ((t.policy i).due = false → t.maximumExpiry v i
        = (Tele.updatePolicy i (fun p => { p with due := true }) { stopped with due := stopped.due ++ [i] }).pack v)
      ∧ ((t.policy i).due = true → t.maximumExpiry v i = stopped.pack v) := by
  intro stopped
  have hi : i < t.policies.length := Tele.policy_lt fun he => h (by rw [he]; rfl)
  have record : stopped.policy i = { t.policy i with maxTimer := none } := t.policy_updatePolicy_self _ hi
  have expires : t.maximumExpiry v i = (stopped.becomeDue i).pack v := if_pos (Option.isSome_iff_ne_none.mpr h)
  rw [expires]
  exact ⟨fun hd => by rw [Tele.becomeDue_idle (by rw [record]; exact hd)],
    fun hd => by rw [Tele.becomeDue_due (by rw [record]; exact hd)]⟩

/-! ## Pack holds (R168, R169) and the pulse (R158) -/

theorem Tele.pulseExpiry_stopped (h : t.pulse = none) : t.pulseExpiry = t := if_neg (by rw [h]; decide)

theorem Tele.pulseExpiry_running (h : t.pulse ≠ none) : t.pulseExpiry = { t with alert := false, pulse := none } :=
  if_pos (Option.isSome_iff_ne_none.mpr h)

theorem Tele.packHoldExpiry_opened_stopped (h : t.opened.hold = none) : t.packHoldExpiry .opened = t :=
  if_neg (by rw [h]; decide)

theorem Tele.packHoldExpiry_opened_running (h : t.opened.hold ≠ none) :
    t.packHoldExpiry .opened = { t with opened := { t.opened with ready := true, hold := none } } :=
  if_pos (Option.isSome_iff_ne_none.mpr h)

theorem Tele.packHoldExpiry_ahead_running {c : ReportCell} (hc : t.ahead = some c) (h : c.hold ≠ none) :
    t.packHoldExpiry .runAhead = { t with ahead := some { c with ready := true, hold := none } } := by
  unfold Tele.packHoldExpiry
  dsimp only
  rw [hc, Option.map_some, if_pos (Option.isSome_iff_ne_none.mpr h)]

theorem Tele.packHoldExpiry_ahead_stopped (h : t.ahead = none ∨ ∃ c, t.ahead = some c ∧ c.hold = none) :
    t.packHoldExpiry .runAhead = t := by
  have kept : t.ahead.map (fun c => if c.hold.isSome then { c with ready := true, hold := none } else c) = t.ahead := by
    rcases h with h | ⟨c, hc, h⟩
    · rw [h]; rfl
    · rw [hc, Option.map_some, if_neg (by rw [h]; decide)]
  unfold Tele.packHoldExpiry
  dsimp only
  rw [kept]

end Sys2Proof.Machine

open Sys2Proof Sys2Proof.Machine

/-- Settles O53: each expiry is an operation of the Condition and Report units alone (`exec_teleExpiry`); a packing takes one item
(`Tele.pack_urgent`, `Tele.pack_routine`) or finds none that is eligible (`Tele.pack_idle`). -/
theorem reportTimersExpire : Obligations.ReportTimersExpire := by
  refine ⟨fun s hs => ?_, fun v t => ?_⟩
  · intro tele v became
    refine ⟨fun h => ?_, fun h => ?_, fun i h => ?_, fun i h => ?_, fun i h => ?_, fun i h => ?_, fun h => ?_, fun h => ?_,
      fun c hc h => ?_, fun h => ?_⟩
    · rw [exec_pulseTimerExpiry hs, Tele.pulseExpiry_stopped h]; rfl
    · rw [exec_pulseTimerExpiry hs, Tele.pulseExpiry_running h]; rfl
    · rw [exec_minimumTimerExpiry hs, Tele.minimumExpiry_stopped h]; rfl
    · rw [exec_minimumTimerExpiry hs]
      obtain ⟨hmoved, hkept⟩ := Tele.minimumExpiry_running (v := v) h
      exact ⟨fun hm hd => congrArg s.becomes (hmoved hm hd), fun hn => congrArg s.becomes (hkept hn)⟩
    · rw [exec_maximumTimerExpiry hs, Tele.maximumExpiry_stopped h]; rfl
    · rw [exec_maximumTimerExpiry hs]
      obtain ⟨hidle, hdue⟩ := Tele.maximumExpiry_running (v := v) h
      exact ⟨fun hd => congrArg s.becomes (hidle hd), fun hd => congrArg s.becomes (hdue hd)⟩
    · rw [exec_packHoldExpiry hs, Tele.packHoldExpiry_opened_stopped h]; rfl
    · rw [exec_packHoldExpiry hs, Tele.packHoldExpiry_opened_running h]; rfl
    · rw [exec_packHoldExpiry hs, Tele.packHoldExpiry_ahead_running hc h]; rfl
    · rw [exec_packHoldExpiry hs, Tele.packHoldExpiry_ahead_stopped h]; rfl
  · intro kindItem kindTold urgentTakes urgentIdle cell put noticeTaken entryTaken noNotice
    have hidle : urgentIdle → t.packUrgent = none := Tele.packUrgent_none_iff.mpr
    have hput : ∀ x u, put x u = t.putCell (t.nextCell.packRoutine v x) u := fun x u => by
      rw [ReportCell.packRoutine_eq]
      rfl
    have hnone : noNotice → ∀ n rest, t.notices = n :: rest → ¬ t.nextCell.takesNotice n = true :=
      fun hn n rest hd hc => hn n rest hd (ReportCell.takesNotice_iff.mp hc)
    have hentry : ∀ i, ¬ entryTaken i → ¬ t.nextCell.takesPolicy i = true :=
      fun i hi hc => hi (ReportCell.takesPolicy_iff.mp hc)
    refine ⟨fun k rest hd hk => Tele.pack_urgent (Tele.packUrgent_takes hd hk), fun hu n rest hd hn => ?_,
      fun hu hno before i after hd hi hb => ?_,
      fun hu hno hi => Tele.pack_none (hidle hu) (hnone hno) fun i hm => hentry i (hi i hm)⟩
    · obtain rfl : t.notices.tail = rest := by rw [hd]; rfl
      rw [Tele.pack_notice (hidle hu) hd (ReportCell.takesNotice_iff.mpr hn)]
      simp only [hput]
      cases n <;> rfl
    · have hi : t.nextCell.takesPolicy i = true := ReportCell.takesPolicy_iff.mpr hi
      have hb : ∀ k ∈ before, ¬ t.nextCell.takesPolicy k = true := fun k hk => hentry k (hb k hk)
      rw [Tele.pack_due (hidle hu) (hnone hno) hd hi hb]
      simp only [hput, Tele.policyPacked, hd, (oldestDue_append hi hb).2]
      rfl
end

section
/-!
PROOFS. The field groups of the tables and the records as bytes (spec/11 R175, R176): a group that a write takes is read back, and
which groups there are.
-/

namespace Sys2Proof.Machine

variable {a bound group i w z : Nat} {b : Bool} {d : List Byte} {e : Env} {j : Jobs} {s new : Settings}

/-! ## Fields in bytes -/

@[simp] theorem natBytes_length (w n : Nat) : (natBytes w n).length = w := by
  induction w with
  | zero => rfl
  | succ w ih => rw [natBytes, List.length_cons, ih]

/-- The last byte of a number is what remains by 256. -/
theorem natBytes_snoc (w n : Nat) : natBytes (w + 1) n = natBytes w (n / 256) ++ [byteOf n] := by
  induction w with
  | zero => simp [natBytes]
  | succ w ih => rw [natBytes, ih, natBytes, List.cons_append, Nat.div_div_eq_div_mul, ← Nat.pow_succ']

/-- The number that bytes stand for, most significant first, is written in these bytes again. -/
theorem natBytes_foldl (l : List Byte) : natBytes l.length (l.foldl (fun n b => n * 256 + b.toNat) 0) = l := by
  induction l using List.reverseRecOn with
  | nil => rfl
  | append_singleton l b ih =>
    rw [List.length_append, List.foldl_append, List.foldl_cons, List.foldl_nil]
    have hb : b.toNat < 256 := b.isLt
    have hdiv : ∀ n, (n * 256 + b.toNat) / 256 = n := fun n => by omega
    have hbyte : ∀ n, byteOf (n * 256 + b.toNat) = b := fun n => BitVec.eq_of_toNat_eq (by
      rw [byteOf, BitVec.toNat_ofNat]; omega)
    exact (natBytes_snoc ..).trans (by rw [hdiv, hbyte, ih])

/-- A field of a group, written again, is its bytes. -/
theorem natBytes_fieldAt (h : i + w ≤ d.length) : natBytes w (fieldAt d i w) = (d.drop i).take w := by
  have hlen : ((d.drop i).take w).length = w := by rw [List.length_take, List.length_drop]; omega
  have h := natBytes_foldl ((d.drop i).take w)
  rwa [hlen] at h

theorem foldl_bytes_lt (l : List Byte) : l.foldl (fun n b => n * 256 + b.toNat) 0 < 256 ^ l.length := by
  induction l using List.reverseRecOn with
  | nil => decide
  | append_singleton l b ih =>
    rw [List.length_append, List.foldl_append, List.foldl_cons, List.foldl_nil, List.length_singleton, Nat.pow_succ]
    have hb : b.toNat < 256 := b.isLt
    omega

theorem fieldAt_lt (d : List Byte) (i w : Nat) : fieldAt d i w < 256 ^ w :=
  (foldl_bytes_lt _).trans_le (Nat.pow_le_pow_right (by decide) (List.length_take_le ..))

/-- A signed field is written in two's complement again. -/
theorem intBytes_signedAt (d : List Byte) (i : Nat) : intBytes 2 (signedAt d i) = natBytes 2 (fieldAt d i 2) := by
  have h : fieldAt d i 2 < 65536 := fieldAt_lt d i 2
  unfold intBytes signedAt
  congr 1
  split <;> omega

theorem markByte_markAt (h : markAt d i = some b) : markByte b = natBytes 1 (fieldAt d i 1) := by
  unfold markAt at h
  unfold markByte
  split at h <;> cases h <;> simp [*]

/-- An index that is none is the byte 255. -/
theorem optBytes_indexAt {x : Option Nat} (h : indexAt d i bound = some x) : optBytes 1 x = natBytes 1 (fieldAt d i 1) := by
  unfold indexAt at h
  split at h
  · next h255 => cases h; rw [h255]; rfl
  · split at h <;> cases h
    rfl

/-! ## Codes -/

theorem headKindOf_code {n : Nat} {k : HeadKind} (h : headKindOf n = some k) : k.code = n := by
  unfold headKindOf at h
  split at h <;> cases h <;> rfl

theorem actKindOf_code {n : Nat} {k : ActKind} (h : actKindOf n = some k) : k.code = n := by
  unfold actKindOf at h
  split at h <;> cases h <;> rfl

theorem bandOf_code {n : Nat} {k : Band} (h : bandOf n = some k) : k.code = n := by
  unfold bandOf at h
  split at h <;> cases h <;> rfl

theorem curveModeOf_code {n : Nat} {k : CurveMode} (h : curveModeOf n = some k) : k.code = n := by
  unfold curveModeOf at h
  split at h <;> cases h <;> rfl

theorem airFactorOf_code {n : Nat} {k : AirFactor} (h : airFactorOf n = some k) : k.code = n := by
  unfold airFactorOf at h
  split at h <;> cases h <;> rfl

/-! ## Groups -/

@[simp] theorem group8_length (fields : List (List Byte)) : (group8 fields).length = 8 := by
  rw [group8, List.length_take, List.length_append, List.length_replicate]
  omega

/-- The fields of the widths given that stand in a group from offset `i` on, written again. -/
def fieldsOf (d : List Byte) : List Nat → Nat → List (List Byte)
  | [], _ => []
  | w :: ws, i => natBytes w (fieldAt d i w) :: fieldsOf d ws (i + w)

theorem fieldsOf_flatten (ws : List Nat) (h : i + ws.sum = d.length) : (fieldsOf d ws i).flatten = d.drop i := by
  induction ws generalizing i with
  | nil => exact (List.drop_eq_nil_of_le (Nat.le_of_eq h.symm)).symm
  | cons w ws ih =>
    rw [List.sum_cons] at h
    rw [fieldsOf, List.flatten_cons, ih (by omega), natBytes_fieldAt (by omega), ← List.drop_drop, List.take_append_drop]

/-- Fields that fill a group are the group. -/
theorem group8_fieldsOf (ws : List Nat) (hd : d.length = 8) (hws : ws.sum = 8) : group8 (fieldsOf d ws 0) = d := by
  rw [group8, fieldsOf_flatten ws (by rw [hws, hd]), List.drop_zero, List.take_append_of_le_length hd.ge, List.take_of_length_le hd.le]

/-! ## What is read after a write -/

theorem readGeneral_written (hd : d.length = 8) (hg : group = 0 ∨ group = 1 ∨ group = 3) (h : writeGeneral s group d = some new) :
    (readGeneral new group).map group8 = some d := by
  rcases hg with rfl | rfl | rfl <;> obtain ⟨-, rfl⟩ := taken_eq_some h
  · exact congrArg some (group8_fieldsOf [1, 1, 1, 1, 2, 2] hd rfl)
  · exact congrArg some (group8_fieldsOf [2, 2, 2, 2] hd rfl)
  · exact congrArg some (group8_fieldsOf [4, 2, 2] hd rfl)

theorem Settings.head_written (x : HeadSettings) (ha : a ≠ 0) (hl : a - 1 < s.heads.length) :
    ({ s with heads := updateAt (fun _ => x) (a - 1) s.heads } : Settings).head a = x :=
  (if_neg ha).trans (updateAt_getD_self _ _ _ _ hl)

theorem readHead_written (hd : d.length = 8) (hg : group ≤ 1) (ha : a ≠ 0) (hl : a - 1 < s.heads.length)
    (h : writeHead s a group d = some new) : (readHead { e with set := new } j a group).map group8 = some d := by
  obtain rfl | rfl : group = 0 ∨ group = 1 := by omega
  · simp only [writeHead] at h
    split at h
    · next k absorb enabled hk habsorb henabled =>
      obtain ⟨-, rfl⟩ := taken_eq_some h
      unfold readHead
      simp only [Settings.head_written _ ha hl, headKindOf_code hk, markByte_markAt habsorb, markByte_markAt henabled]
      exact congrArg some (group8_fieldsOf [1, 1, 1, 1, 2, 2] hd rfl)
    · cases h
  · simp only [writeHead] at h
    obtain ⟨-, rfl⟩ := taken_eq_some h
    unfold readHead
    simp only [Settings.head_written _ ha hl]
    exact congrArg some (group8_fieldsOf [2, 2, 2, 2] hd rfl)

theorem readActuator_written (hd : d.length = 8) (hi : i < 12) (hl : s.actuators.length = 12)
    (h : writeActuator s i d = some new) : entryGroup { e with set := new } j .actuators i 0 = some d := by
  unfold writeActuator at h
  split at h
  · next k manual governed hk hmanual hgoverned =>
    obtain ⟨-, rfl⟩ := taken_eq_some h
    unfold entryGroup readTable
    dsimp only
    rw [if_pos ⟨hi, rfl⟩, Settings.act, updateAt_getD_self _ _ _ _ (hl.symm ▸ hi), actKindOf_code hk, markByte_markAt hmanual,
      markByte_markAt hgoverned]
    exact congrArg some (group8_fieldsOf [1, 1, 1, 1, 2, 2] hd rfl)
  · cases h

theorem readTariff_written (hd : d.length = 8) (hi : i < 16) (hl : s.tariff.length = 16)
    (h : writeTariff s i 0 d = some new) : entryGroup { e with set := new } j .tariff i 0 = some d := by
  simp only [writeTariff] at h
  split at h
  · next used band hused hband =>
    obtain ⟨-, rfl⟩ := taken_eq_some h
    unfold entryGroup readTable
    dsimp only
    rw [if_neg (Nat.not_le.mpr hi), if_pos rfl, updateAt_getD_self _ _ _ _ (hl.symm ▸ hi), bandOf_code hband,
      markByte_markAt hused]
    exact congrArg some (group8_fieldsOf [1, 1, 2, 2, 2] hd rfl)
  · cases h

theorem readGuard_written (hd : d.length = 8) (h : writeGuard s 0 d = some new) :
    entryGroup { e with set := new } j .guard 0 0 = some d := by
  obtain ⟨-, rfl⟩ := taken_eq_some h
  exact congrArg some (group8_fieldsOf [2, 2, 2, 2] hd rfl)

theorem readZone_written (hd : d.length = 8) (hz : z < s.zones.length) (h : writeZone s z 0 d = some new) :
    (readZone new z 0).map group8 = some d := by
  simp only [writeZone] at h
  split at h
  · next heater mode compensated hheater hmode hcompensated =>
    obtain ⟨-, rfl⟩ := taken_eq_some h
    unfold readZone Settings.zone
    dsimp only
    rw [updateAt_getD_self _ _ _ _ hz, optBytes_indexAt hheater, curveModeOf_code hmode, markByte_markAt hcompensated,
      intBytes_signedAt, intBytes_signedAt]
    exact congrArg some (group8_fieldsOf [1, 1, 1, 1, 2, 2] hd rfl)
  · cases h

theorem readShared_written (hd : d.length = 8) (h : writeShared s 0 d = some new) :
    (readShared new.shared 0).map group8 = some d := by
  simp only [writeShared] at h
  split at h
  · next up dn hup hdn =>
    obtain ⟨-, rfl⟩ := taken_eq_some h
    unfold readShared
    dsimp only
    rw [airFactorOf_code hup, airFactorOf_code hdn, intBytes_signedAt]
    exact congrArg some (group8_fieldsOf [2, 1, 1, 2, 1, 1] hd rfl)
  · cases h

end Sys2Proof.Machine

open Sys2Proof Sys2Proof.Machine

/-- Settles O56: each field is written as it was read (`natBytes_fieldAt`), so fields that fill a group are the group
(`group8_fieldsOf`). -/
theorem readReturnsWhatWasWritten : Obligations.ReadReturnsWhatWasWritten := by
  intro e j table i group d new hd hshape hcase h
  obtain ⟨hheads, hacts, htariff, -, hzones, -⟩ := hshape
  rcases hcase with ⟨rfl, rfl, hg⟩ | ⟨rfl, h1, h47, hg⟩ | ⟨rfl, hi, rfl⟩ | ⟨rfl, hi, rfl⟩ | ⟨rfl, rfl, rfl⟩ | ⟨rfl, hi, rfl⟩
  · exact readGeneral_written hd hg h
  · unfold entryGroup readTable
    dsimp only
    rw [if_pos ⟨h1, h47⟩]
    exact readHead_written hd hg (by omega) (by omega) h
  · exact readActuator_written hd hi hacts h
  · exact readTariff_written hd hi htariff h
  · exact readGuard_written hd h
  · unfold entryGroup readTable
    dsimp only
    unfold writeTable at h
    dsimp only at h
    split at h
    · next h4 =>
      subst h4
      exact readShared_written hd h
    · next h4 =>
      rw [if_pos (show i < 4 by omega)]
      exact readZone_written hd (by omega) h
end

section
/-!
PROOFS. Which field groups the tables and the records have (spec/11 R175), and the reading requests (R173).
The proofs are elaborated one after the other, which keeps the whole text inside the sandbox's memory.
-/

set_option Elab.async false

namespace Sys2Proof.Machine

variable {e : Env} {j : Jobs} {t : Table} {id i group n : Nat} {fields : List (List Byte)} {d : List Byte} {p : Port}
  {bs : List Byte} {r : Request} {s : State}

/-! ## Groups of the tables -/

theorem readGeneral_isSome (set : Settings) : (readGeneral set group).isSome = true ↔ group < 4 := by
  match group with
  | 0 | 1 | 2 | 3 | n + 4 => simp [readGeneral]

theorem readHead_isSome (a : Nat) : (readHead e j a group).isSome = true ↔ group < 4 := by
  match group with
  | 0 | 1 | 2 | 3 | n + 4 => simp [readHead]

theorem readZone_isSome (set : Settings) (z : Nat) : (readZone set z group).isSome = true ↔ group < 3 := by
  match group with
  | 0 | 1 | 2 | n + 3 => simp [readZone]

theorem readShared_isSome (x : SharedSettings) : (readShared x group).isSome = true ↔ group < 2 := by
  match group with
  | 0 | 1 | n + 2 => simp [readShared]

theorem readPolicy_isSome (set : Settings) (tele : Tele) : (readPolicy set tele i group).isSome = true ↔ group < 3 := by
  match group with
  | 0 | 1 | 2 | n + 3 => simp [readPolicy]

/-- An optional value that is there under a condition. -/
theorem isSome_ite_none {α : Type} {c : Prop} [Decidable c] (x : Option α) :
    (if c then x else none).isSome = true ↔ c ∧ x.isSome = true := by
  split <;> simp [*]

/-- One of two groups, of an entry that is there. -/
theorem isSome_choice {α : Type} {c c1 c2 : Prop} [Decidable c] [Decidable c1] [Decidable c2] {x y : α} :
    (if c then none else if c1 then some x else if c2 then some y else none).isSome = true ↔ ¬ c ∧ (c1 ∨ c2) := by
  split
  · simp [*]
  · split <;> simp [*]

/-- R175: a table has the groups that its chapter gives its entries. -/
theorem entryGroup_isSome (e : Env) (j : Jobs) (t : Table) (i group : Nat) :
    (entryGroup e j t i group).isSome = true ↔ entryExists t i group := by
  unfold entryGroup readTable entryExists
  rw [Option.isSome_map]
  cases t with
  | general => exact (isSome_ite_none _).trans (and_congr_right fun _ => readGeneral_isSome _)
  | heads =>
    refine (isSome_ite_none _).trans ((and_congr_right fun _ => readHead_isSome _).trans ?_)
    simp [Config.headCount, and_assoc]
  | actuators => exact (isSome_ite_none _).trans (and_iff_left rfl)
  | tariff => exact isSome_choice.trans (by omega)
  | strapping => dsimp only; split <;> simp <;> omega
  | guard => exact isSome_choice.trans (by omega)
  | zones =>
    dsimp only
    split
    · rw [readZone_isSome]; omega
    · rw [isSome_ite_none, readShared_isSome]; omega
  | allotment => simp [isSome_ite_none]
  | policy => exact (isSome_ite_none _).trans (and_congr_right fun _ => readPolicy_isSome _ _)
  | conditions => exact isSome_choice.trans (by omega)

/-! ## Groups of the records -/

@[simp] theorem markByte_length (b : Bool) : (markByte b).length = 1 := natBytes_length ..
@[simp] theorem optBytes_length (w : Nat) (v : Option Nat) : (optBytes w v).length = w := natBytes_length ..
@[simp] theorem optIntBytes_length (w : Nat) (v : Option Int) : (optIntBytes w v).length = w := natBytes_length ..
@[simp] theorem presentByte_length (b : Bool) : (presentByte b).length = 1 := optBytes_length ..
@[simp] theorem timerBytes_length (e : Env) (x : Timer) : (timerBytes e x).length = 2 := optBytes_length ..
@[simp] theorem timeBytes_length (x : Option TimeOfWeek) : (timeBytes x).length = 3 := by simp [timeBytes]
@[simp] theorem gaugeBytes_length (g : Option GaugeLevel) : (gaugeBytes g).length = 3 := by simp [gaugeBytes]
@[simp] theorem commandedBytes_length (c : Commanded) : (commandedBytes c).length = 2 := by simp [commandedBytes]
@[simp] theorem holdBytes_length (e : Env) (h : Option Hold) : (holdBytes e h).length = 5 := by simp [holdBytes]

/-- How many groups fields of the widths given fill, none split: `got` are the widths in the group being filled. -/
def groupCount : List Nat → List Nat → Nat
  | got, [] => if got.isEmpty then 0 else 1
  | got, w :: rest => if got.sum + w ≤ 8 then groupCount (got ++ [w]) rest else groupCount [w] rest + 1

theorem fillGroups_length (got fields : List (List Byte)) :
    (fillGroups got fields).length = groupCount (got.map List.length) (fields.map List.length) := by
  induction fields generalizing got with
  | nil => cases got <;> rfl
  | cons f rest ih =>
    rw [fillGroups, List.map_cons, groupCount, ← List.length_flatten]
    split
    · rw [ih, List.map_append]; rfl
    · rw [List.length_cons, ih]; rfl

theorem recordGroups_length (fields : List (List Byte)) :
    (recordGroups fields).length = groupCount [] (fields.map List.length) := by
  rw [recordGroups, List.length_map, fillGroups_length]
  rfl

theorem recordGroup_length (h : recordGroup e j id i group = some d) : d.length = 8 := by
  obtain ⟨gs, hgs, hd⟩ := Option.bind_eq_some_iff.mp h
  obtain ⟨fields, -, rfl⟩ := Option.map_eq_some_iff.mp hgs
  obtain ⟨x, -, rfl⟩ := List.mem_map.mp (List.mem_of_getElem? hd)
  exact group8_length x

theorem entryGroup_length (h : entryGroup e j t i group = some d) : d.length = 8 := by
  obtain ⟨fields, -, rfl⟩ := Option.map_eq_some_iff.mp h
  exact group8_length fields

/-- The widths of a record's fields, none where the record has no such index (R175). -/
def recordWidths (id i : Nat) : Option (List Nat) :=
  match id with
  | 1 => if i = 0 then some [3, 3, 1, 2, 2, 1, 4, 1, 2, 3] else none
  | 2 => if i = 0 then some [1, 1, 1, 2, 4, 4, 2, 2, 2, 2, 2, 1, 1, 1, 1, 1, 2, 2] else none
  | 3 => if i = 0 then some [1, 1, 1, 2, 2, 2, 2] else none
  | 4 => if i < 6 then some [1, 1, 2, 2, 1, 3, 1, 3] else if i = 6 then some [2, 2] else none
  | 5 => if i < 4 then some [2, 2, 1, 1, 1, 2, 1, 3, 1, 1, 1, 1, 1, 1, 2] else none
  | 6 => if i < 12 then some [2, 2, 3, 1, 1, 1, 5, 1, 2, 5] else none
  | 7 => if i < 22 then some [1, 1, 1, 1, 1, 3, 3] else none
  | 8 => if i = 0 then some (List.replicate 14 4) else none
  | _ => none

theorem recordFields_widths (e : Env) (j : Jobs) (id i : Nat) :
    (recordFields e j id i).map (List.map List.length) = recordWidths id i := by
  match id with
  | 1 => simp only [recordFields, recordWidths]; split <;> simp [levelFields]
  | 2 => simp only [recordFields, recordWidths]; split <;> simp [fillFields]
  | 3 => simp only [recordFields, recordWidths]; split <;> simp [tariffFields]
  | 4 =>
    simp only [recordFields, recordWidths]
    split
    · simp [claimFields]
    · split <;> simp
  | 5 => simp only [recordFields, recordWidths]; split <;> simp [zoneFields]
  | 6 => simp only [recordFields, recordWidths, Config.actuatorCount]; split <;> simp [actFields, *]
  | 7 =>
    simp only [recordFields, recordWidths]
    split
    · next k hk =>
      rw [if_pos (show i < 22 from (List.getElem?_eq_some_iff.mp hk).1)]
      simp [condFields]
    · next hk => exact (if_neg (Nat.not_lt.mpr (List.getElem?_eq_none_iff.mp hk))).symm
  | 8 => simp only [recordFields, recordWidths]; split <;> simp [counterList]
  | 0 | n + 9 => rfl

theorem recordGroup_isSome_iff (e : Env) (j : Jobs) (id i group : Nat) :
    (recordGroup e j id i group).isSome = true ↔ ∃ ws, recordWidths id i = some ws ∧ group < groupCount [] ws := by
  rw [recordGroup, ← recordFields_widths e j]
  cases recordFields e j id i with
  | none => simp
  | some fields => simp [recordGroups_length]

/-- R175: a record has the groups that its fields fill. -/
theorem recordGroup_isSome (e : Env) (j : Jobs) (id i group : Nat) :
    (recordGroup e j id i group).isSome = true ↔ recordExists id i group := by
  rw [recordGroup_isSome_iff]
  unfold recordExists
  match id with
  | 1 | 2 | 3 | 5 | 6 | 7 | 8 => simp only [recordWidths]; split <;> simp [groupCount, *]
  | 4 =>
    simp only [recordWidths]
    split
    · simp [groupCount]; omega
    · split <;> simp [groupCount, *]
  | 0 | n + 9 => simp [recordWidths]

/-! ## A request's cell on a part that is ready -/

theorem State.Ready.received_frame (hs : s.Ready) (p : Port) (bs : List Byte) : Env.Frame s.env (s.received p bs).env := by
  have h := s.received_frame p bs
  rwa [State.settled_ready hs.2] at h

theorem State.Ready.received_loop (hs : s.Ready) (p : Port) (bs : List Byte) :
    ∃ n, (s.received p bs).loop = { s.loop with badRun := n } := by
  have h := s.received_loop p bs
  rwa [State.settled_ready hs.2] at h

/-- R173: a request that passes every check is carried out. -/
theorem exec_passed {c : Instr} (hc : arrivalOf c = some (p, bs)) (hs : s.Ready) (h : s.Requested p bs r)
    (hok : firstFailure (s.received p bs).env (s.received p bs).jobs r = none) :
    exec c s = .next ((s.received p bs).carryOut r).creditWatch := by
  have hexec := exec_request hc hs.1 h
  rw [State.settled_ready hs.2] at hexec
  exact hexec hok

/-! ## The reading requests -/

theorem firstFailure_readEntry (hk : r.kind = 1) (ht : tableOf r.id = some t) (h : entryGroup e j t r.index r.group = some d) :
    firstFailure e j r = none := by
  simp [firstFailure, hk, ht, h, within, localKind, idOk, indexOk, busyKind, isGuarded]

theorem firstFailure_readRecord (hk : r.kind = 3) (h1 : 1 ≤ r.id) (h8 : r.id ≤ 8)
    (h : recordGroup e j r.id r.index r.group = some d) : firstFailure e j r = none := by
  simp [firstFailure, hk, h1, h8, h, within, localKind, idOk, indexOk, busyKind, isGuarded]

theorem carryOut_readEntry (hk : r.kind = 1) (ht : tableOf r.id = some t)
    (h : entryGroup s.env s.jobs t r.index r.group = some d) : s.carryOut r = s.answer r .done d := by
  simp [State.carryOut, hk, ht, h]

theorem carryOut_readRecord (hk : r.kind = 3) (h : recordGroup s.env s.jobs r.id r.index r.group = some d) :
    s.carryOut r = s.answer r .done d := by
  simp [State.carryOut, hk, h]

/-! ## Numbers as bytes -/

theorem natBytes_one (n : Nat) : natBytes 1 n = [byteOf n] := by simp [natBytes]
theorem natBytes_two (n : Nat) : natBytes 2 n = [byteOf (n / 256), byteOf n] := by simp [natBytes]
theorem natBytes_four (n : Nat) :
    natBytes 4 n = [byteOf (n / 16777216), byteOf (n / 65536), byteOf (n / 256), byteOf n] := by simp [natBytes]

end Sys2Proof.Machine

open Sys2Proof Sys2Proof.Machine

/-- Settles O55: a group that is there passes every check and is answered as it stands (`exec_passed`). -/
theorem readsAnswerGroup : Obligations.ReadsAnswerGroup := by
  refine ⟨fun p bs r s hs hreq => ?_, fun e j => ⟨?_, ?_, ?_⟩⟩
  · intro s1
    refine ⟨fun table d hk ht hd => ⟨?_, entryGroup_length hd⟩, fun d hk h1 h8 hd => ⟨?_, recordGroup_length hd⟩⟩
    · rw [exec_passed (c := .readEntry p bs) rfl hs hreq (firstFailure_readEntry hk ht hd), carryOut_readEntry hk ht hd]
    · rw [exec_passed (c := .readRecord p bs) rfl hs hreq (firstFailure_readRecord hk h1 h8 hd), carryOut_readRecord hk hd]
  · simp [entryGroup, readTable, readGeneral, natBytes_one, natBytes_two, group8]
  · simp [recordGroup, recordFields, recordGroups, counterList, fillGroups, natBytes_four, group8]
  · simp [recordGroup, recordFields, recordGroups, fillGroups, natBytes_two, group8]
end

section
/-!
PROOFS. The checks of a request (spec/11 R173, R174), and what a WRITE_ENTRY and the lock requests move (R176, R174).
The proofs are elaborated one after the other, which keeps the whole text inside the sandbox's memory.
-/

set_option Elab.async false

namespace Sys2Proof.Machine

variable {e : Env} {j : Jobs} {t : Table} {new : Settings} {p : Port} {bs : List Byte} {r : Request} {s : State}

/-! ## A request's cell reaches the Management unit -/

/-- R5, R6: a MGMT_REQ cell to the own address is the Management unit's, whatever becomes of it. -/
theorem exec_management {c : Instr} (hc : arrivalOf c = some (p, bs)) (hs : s.Ready) (hgood : goodCell bs = true)
    (hkind : cellKind bs = kindMgmtReq) (hdest : cellDest bs = s.env.set.general.ownAddress) :
    exec c s = .next ((s.received p bs).manage p bs).creditWatch := by
  have hset := (hs.received_frame p bs).set
  have hne : ∀ k, k ≠ kindMgmtReq → cellKind bs ≠ k := fun k hk hb => hk (hb.symm.trans hkind)
  rw [exec_arrival hc, State.powerCommand_settled hs]
  unfold State.arrive
  rw [if_pos hgood]
  cases p with
  | field =>
    show Host.Outcome.next ((s.received .field bs).classifyField bs).creditWatch = _
    unfold State.classifyField
    dsimp only
    rw [if_neg (hne kindSample (by decide)), if_neg (hne kindStatus (by decide)), if_pos (hdest.trans (by rw [hset])),
      if_neg (hne kindAck (by decide)), if_pos hkind]
  | line =>
    show Host.Outcome.next ((s.received .line bs).classifyLine bs).creditWatch = _
    unfold State.classifyLine
    dsimp only
    rw [if_neg fun h => hne kindCommand (by decide) h.1, if_neg fun h => hne kindCommand (by decide) h.1,
      if_neg fun h => hne kindFence (by decide) h.1, if_neg fun h => hne kindClock (by decide) h.1,
      if_neg fun h => hne kindClock (by decide) h.1, if_neg fun h => hne kindCredit (by decide) h.1,
      if_pos ⟨hkind, hdest⟩]

/-- R173: a request that fails a check is answered with the check's result. -/
theorem exec_failed {c : Instr} {res : Result} (hc : arrivalOf c = some (p, bs)) (hs : s.Ready) (h : s.Requested p bs r)
    (hf : firstFailure (s.received p bs).env (s.received p bs).jobs r = some res) :
    exec c s = .next ((s.received p bs).answer r res []).creditWatch := by
  obtain ⟨hgood, hkind, hdest, hreq⟩ := h
  have hset := (hs.received_frame p bs).set
  rw [exec_management hc hs hgood hkind hdest]
  unfold State.manage
  rw [hset, hreq]
  dsimp only
  rw [hf]

/-! ## The checks, one by one (R173) -/

/-- R173 steps 1 and 2 are passed: the kind is known, and not kept from the request's source. -/
def Request.Admitted (r : Request) : Prop := within 1 11 r.kind = true ∧ (localKind r.kind && r.source == .line) = false

theorem Request.admitted_of_le (h1 : 1 ≤ r.kind) (h8 : r.kind ≤ 8) : r.Admitted := by
  refine ⟨within_iff.mpr ⟨h1, by omega⟩, ?_⟩
  have hk : localKind r.kind = false := by simp [localKind]; omega
  rw [hk, Bool.false_and]

theorem Request.admitted_of_local (h1 : 1 ≤ r.kind) (h11 : r.kind ≤ 11) (hs : r.source = .local) : r.Admitted :=
  ⟨within_iff.mpr ⟨h1, h11⟩, by rw [hs]; exact Bool.and_false _⟩

theorem firstFailure_unknownKind (h : r.kind = 0 ∨ 11 < r.kind) : firstFailure e j r = some .badValue := by
  have hk : within 1 11 r.kind = false := Bool.eq_false_iff.mpr fun hw => by
    have := within_iff.mp hw
    omega
  simp [firstFailure, hk]

theorem firstFailure_localOnly (h : localKind r.kind = true) (hs : r.source = .line) : firstFailure e j r = some .localOnly := by
  have hk : within 1 11 r.kind = true := within_iff.mpr (by simp [localKind] at h; omega)
  simp [firstFailure, hk, h, hs]

theorem firstFailure_badTable (ha : r.Admitted) (hid : idOk r = false) : firstFailure e j r = some .badTable := by
  simp [firstFailure, ha.1, ha.2, hid]

theorem firstFailure_badIndex (ha : r.Admitted) (hid : idOk r = true) (hi : indexOk e j r = false) :
    firstFailure e j r = some .badIndex := by
  simp [firstFailure, ha.1, ha.2, hid, hi]

theorem firstFailure_busy (ha : r.Admitted) (hid : idOk r = true) (hi : indexOk e j r = true) (hk : busyKind r.kind = true)
    (hb : j.store.busy = true) : firstFailure e j r = some .busy := by
  simp [firstFailure, ha.1, ha.2, hid, hi, hk, hb]

theorem firstFailure_isProtected (ha : r.Admitted) (hid : idOk r = true) (hi : indexOk e j r = true)
    (hb : j.store.busy = false) (hg : isGuarded e r = true) : firstFailure e j r = some .isProtected := by
  simp [firstFailure, ha.1, ha.2, hid, hi, hb, hg]

theorem firstFailure_badValue (hid : idOk r = true) (hi : indexOk e j r = true) (hb : j.store.busy = false)
    (hg : isGuarded e r = false) (hk : r.kind = 2) (hw : r.write e.set = none) : firstFailure e j r = some .badValue := by
  simp [firstFailure, hk, hid, hi, hb, hg, hw, within, localKind]

/-! ## What each check asks -/

theorem tableOf_none {n : Nat} (h : n = 0 ∨ 10 < n) : tableOf n = none := by
  match n with
  | 0 => rfl
  | n + 11 => rfl
  | 1 | 2 | 3 | 4 | 5 | 6 | 7 | 8 | 9 | 10 => omega

theorem idOk_entry (hk : r.kind = 1 ∨ r.kind = 2) : idOk r = (tableOf r.id).isSome := if_pos hk

theorem idOk_record (hk : r.kind = 3) : idOk r = within 1 8 r.id := by simp [idOk, hk]

theorem idOk_other (hk : 3 < r.kind) : idOk r = true := by
  unfold idOk
  rw [if_neg (by omega), if_neg (by omega)]

theorem indexOk_entry (hk : r.kind = 1 ∨ r.kind = 2) (ht : tableOf r.id = some t) :
    indexOk e j r = (entryGroup e j t r.index r.group).isSome := by
  rcases hk with hk | hk <;> simp [indexOk, hk, ht]

theorem indexOk_record (hk : r.kind = 3) : indexOk e j r = (recordGroup e j r.id r.index r.group).isSome := by
  simp [indexOk, hk]

theorem indexOk_other (hk : 5 < r.kind) : indexOk e j r = true := by
  unfold indexOk
  split
  case h_6 => rfl
  all_goals omega

theorem readOnly_iff {group : Nat} : readOnly t group = true ↔ (t = .heads ∧ 2 ≤ group) ∨ (t = .policy ∧ group = 2) := by
  simp [readOnly]

theorem Table.lockable_iff : t.lockable = true ↔ t ≠ .tariff ∧ t ≠ .policy ∧ t ≠ .conditions := by
  cases t <;> simp [Table.lockable]

/-- R174: a write is turned away by protection. -/
theorem isGuarded_write (hk : r.kind = 2) (ht : tableOf r.id = some t) :
    isGuarded e r = true ↔ writeBarred t r.group (r.source = .line) (e.set.lock = true) := by
  have h : isGuarded e r = (readOnly t r.group || (r.source == .line && t.lockable && e.set.lock)) := by
    simp [isGuarded, hk, ht]
  rw [h, Bool.or_eq_true, Bool.and_eq_true, Bool.and_eq_true, readOnly_iff, Table.lockable_iff, beq_iff_eq]
  unfold writeBarred
  tauto

theorem Request.write_none {set : Settings} (ht : tableOf r.id = some t)
    (h : r.data.length < 2 ∨ writeTable set t r.index r.group r.bytes = none) : r.write set = none := by
  unfold Request.write
  rw [ht]
  split
  · rfl
  · next hlen => exact h.resolve_left hlen

theorem Store.busy_iff (x : Store) : x.busy = true ↔ x.storing ≠ none ∨ x.waiting = true := by
  rw [Store.busy, Bool.or_eq_true, Option.isSome_iff_ne_none]

/-! ## The requests that a check turns away -/

theorem firstFailure_noTable (hk : r.kind = 1 ∨ r.kind = 2) (h : r.id = 0 ∨ 10 < r.id) :
    firstFailure e j r = some .badTable :=
  firstFailure_badTable (Request.admitted_of_le (by omega) (by omega)) (by rw [idOk_entry hk, tableOf_none h]; rfl)

theorem firstFailure_noRecord (hk : r.kind = 3) (h : r.id = 0 ∨ 8 < r.id) : firstFailure e j r = some .badTable :=
  firstFailure_badTable (Request.admitted_of_le (by omega) (by omega)) <| by
    rw [idOk_record hk]
    exact Bool.eq_false_iff.mpr fun hw => by have := within_iff.mp hw; omega

theorem firstFailure_noEntryGroup (hk : r.kind = 1 ∨ r.kind = 2) (ht : tableOf r.id = some t)
    (h : ¬ entryExists t r.index r.group) : firstFailure e j r = some .badIndex :=
  firstFailure_badIndex (Request.admitted_of_le (by omega) (by omega)) (by rw [idOk_entry hk, ht]; rfl) <| by
    rw [indexOk_entry hk ht]
    exact Bool.eq_false_iff.mpr fun hs => h ((entryGroup_isSome ..).mp hs)

theorem firstFailure_noRecordGroup (hk : r.kind = 3) (h1 : 1 ≤ r.id) (h8 : r.id ≤ 8) (h : ¬ recordExists r.id r.index r.group) :
    firstFailure e j r = some .badIndex :=
  firstFailure_badIndex (Request.admitted_of_le (by omega) (by omega))
    (by rw [idOk_record hk]; exact within_iff.mpr ⟨h1, h8⟩) <| by
    rw [indexOk_record hk]
    exact Bool.eq_false_iff.mpr fun hs => h ((recordGroup_isSome ..).mp hs)

theorem firstFailure_noCondition (hk : r.kind = 4) (h : 21 < r.index) : firstFailure e j r = some .badIndex :=
  firstFailure_badIndex (Request.admitted_of_le (by omega) (by omega)) (idOk_other (by omega)) (by simp [indexOk, hk, h])

theorem firstFailure_noActuator (hk : r.kind = 5) (h : 11 < r.index) : firstFailure e j r = some .badIndex :=
  firstFailure_badIndex (Request.admitted_of_le (by omega) (by omega)) (idOk_other (by omega)) (by simp [indexOk, hk, h])

/-- The requests other than a write that a STORE in flight turns away have no table and no index to check. -/
theorem firstFailure_busy_other (ha : r.Admitted) (h6 : 6 ≤ r.kind) (h10 : r.kind ≤ 10) (hb : j.store.busy = true) :
    firstFailure e j r = some .busy :=
  firstFailure_busy ha (idOk_other (by omega)) (indexOk_other h6) (by simp [busyKind]; omega) hb

theorem firstFailure_lockedRecall (hk : r.kind = 7) (hs : r.source = .line) (hl : e.set.lock = true)
    (hb : j.store.busy = false) : firstFailure e j r = some .isProtected :=
  firstFailure_isProtected (Request.admitted_of_le (by omega) (by omega)) (idOk_other (by omega)) (indexOk_other (by omega)) hb
    (by simp [isGuarded, hk, hs, hl])

/-- A WRITE_ENTRY to a group that exists passes the checks before the busy one. -/
theorem Request.write_listed (hk : r.kind = 2) (ht : tableOf r.id = some t) (h : entryExists t r.index r.group) :
    r.Admitted ∧ idOk r = true ∧ indexOk e j r = true :=
  ⟨Request.admitted_of_le (by omega) (by omega), by rw [idOk_entry (.inr hk), ht]; rfl,
    by rw [indexOk_entry (.inr hk) ht]; exact (entryGroup_isSome ..).mpr h⟩

/-! ## What a write moves (R176) -/

theorem headWritten_frame (a : Nat) (old : HeadSettings) (q : Part) : Env.Frame q.1 (headWritten a old q).1 := by
  have hframe := Env.frame_updateHead a
  unfold headWritten
  dsimp only
  split
  · exact .refl _
  · exact hframe ..
  · exact hframe ..
  · split
    · exact (hframe ..).trans (hframe ..)
    · split <;> exact .refl _

/-- R82, R86: of the time, a write moves the Tariff State alone. -/
structure Env.SameTime (e e' : Env) : Prop where
  tow : e'.clock.tow = e.clock.tow
  state : e'.clock.state = e.clock.state
  now : e'.now = e.now

theorem Env.SameTime.refl (e : Env) : Env.SameTime e e := ⟨rfl, rfl, rfl⟩

theorem ownerTold_sameTime (t : Table) (i group : Nat) (before : Settings) (q : Part) :
    Env.SameTime q.1 (ownerTold t i group before q).1 := by
  unfold ownerTold
  dsimp only
  split
  · split
    · exact .refl _
    · split <;> exact .refl _
  · have h := headWritten_frame i (before.head i) q
    exact ⟨congrArg Clock.tow h.clock, congrArg Clock.state h.clock, h.now⟩
  · exact .refl _
  · exact ⟨rfl, rfl, rfl⟩
  · split <;> exact .refl _
  · exact .refl _
  · exact .refl _
  · exact ⟨rfl, rfl, rfl⟩
  · exact .refl _
  · exact .refl _

theorem takeWrite_set (t : Table) (i group : Nat) (new : Settings) (q : Part) : (takeWrite t i group new q).1.set = new :=
  (Part.kept_ownerTold (live := new) t i group q.1.set ({ q.1 with set := new }, q.2)).set

theorem takeWrite_sameTime (t : Table) (i group : Nat) (new : Settings) (q : Part) :
    Env.SameTime q.1 (takeWrite t i group new q).1 := by
  have h := ownerTold_sameTime t i group q.1.set ({ q.1 with set := new }, q.2)
  exact ⟨h.tow, h.state, h.now⟩

theorem carryOut_write (hk : r.kind = 2) (ht : tableOf r.id = some t) (hw : r.write s.env.set = some new) :
    s.carryOut r = (s.change (takeWrite t r.index r.group new)).answer r .done [] := by
  simp [State.carryOut, hk, ht, hw]

theorem carryOut_setLock (hk : r.kind = 9) : s.carryOut r = (s.setLock true).answer r .done [] := by
  simp [State.carryOut, hk]

theorem carryOut_clearLock (hk : r.kind = 10) : s.carryOut r = (s.setLock false).answer r .done [] := by
  simp [State.carryOut, hk]

theorem firstFailure_lock (hk : r.kind = 9 ∨ r.kind = 10) (hs : r.source = .local) (hb : j.store.busy = false) :
    firstFailure e j r = none := by
  rcases hk with hk | hk <;> simp [firstFailure, hk, hs, hb, within, localKind, idOk, indexOk, isGuarded]

theorem State.answer_env (res : Result) (d : List Byte) (u : State) : (u.answer r res d).env = u.env := by
  unfold State.answer State.offer
  cases r.port <;> rfl

end Sys2Proof.Machine

open Sys2Proof Sys2Proof.Machine

/-- Settles O54: what fails first is answered (`exec_failed`), and each check asks for what its table or record has
(`entryGroup_isSome`, `recordGroup_isSome`, `isGuarded_write`). -/
theorem failedRequestChangesNothing : Obligations.FailedRequestChangesNothing := by
  refine ⟨fun p bs r s hs hreq => ?_, fun c p bs s hc hs hgood hkind hdest hnone => ?_⟩
  · intro s1 busy line locked answered fails listed
    have hframe : Env.Frame s.env s1.env := hs.received_frame p bs
    obtain ⟨n, hloop⟩ : ∃ n, s1.loop = { s.loop with badRun := n } := hs.received_loop p bs
    obtain ⟨tele, counters, hjobs⟩ := State.received_jobs hs.2 p bs
    have hset : s1.env.set = s.env.set := hframe.set
    have hstore : s1.jobs.store = s.jobs.store := by rw [hjobs]
    have hfails : ∀ res, firstFailure s1.env s1.jobs r = some res → fails res := fun res hf c hc => exec_failed hc hs hreq hf
    have hbusy : busy → s1.jobs.store.busy = true := fun hb => hstore ▸ (Store.busy_iff _).mpr hb
    have hfree : ¬ busy → s1.jobs.store.busy = false := fun hb =>
      Bool.eq_false_iff.mpr fun h => hb ((Store.busy_iff _).mp (hstore ▸ h))
    have hguarded : ∀ t, r.kind = 2 → listed t → (isGuarded s1.env r = true ↔ writeBarred t r.group line locked) :=
      fun t hk hl => by
        have h := isGuarded_write (e := s1.env) hk hl.1
        rwa [hset] at h
    refine ⟨⟨hset, hframe.clock, hframe.now, by rw [hloop], by rw [hloop], by rw [hjobs]⟩, hfails,
      fun hk => hfails _ (firstFailure_unknownKind hk) _ rfl,
      fun hl hk => hfails _ (firstFailure_localOnly (by simpa [localKind, or_assoc] using hk) hl),
      fun hid hk => hfails _ (firstFailure_noTable hk hid),
      fun hid hk => hfails _ (firstFailure_noRecord hk hid),
      fun hk t ht hex => hfails _ (firstFailure_noEntryGroup hk ht hex),
      fun hk h1 h8 hex => hfails _ (firstFailure_noRecordGroup hk h1 h8 hex),
      fun hi hk => hfails _ (firstFailure_noCondition hk hi),
      fun hi hk => hfails _ (firstFailure_noActuator hk hi),
      fun hb hk => hfails _ ?_,
      fun hb hk t hl hbar => hfails _ ?_,
      fun hb hk hl hlock => hfails _ (firstFailure_lockedRecall hk hl (hset ▸ hlock) (hfree hb)),
      fun hb hk t hl hbar hw => hfails _ ?_⟩
    · rcases hk with ⟨hk, t, ht, hex⟩ | hk | hk | hk | ⟨hlocal, hk⟩
      · obtain ⟨ha, hid, hi⟩ := Request.write_listed hk ht hex
        exact firstFailure_busy ha hid hi (by rw [hk]; rfl) (hbusy hb)
      iterate 3 exact firstFailure_busy_other (Request.admitted_of_le (by omega) (by omega)) (by omega) (by omega) (hbusy hb)
      · exact firstFailure_busy_other (Request.admitted_of_local (by omega) (by omega) hlocal) (by omega) (by omega) (hbusy hb)
    · obtain ⟨ha, hid, hi⟩ := Request.write_listed hk hl.1 hl.2
      exact firstFailure_isProtected ha hid hi (hfree hb) ((hguarded t hk hl).mpr hbar)
    · obtain ⟨-, hid, hi⟩ := Request.write_listed hk hl.1 hl.2
      exact firstFailure_badValue hid hi (hfree hb) (Bool.eq_false_iff.mpr fun h => hbar ((hguarded t hk hl).mp h)) hk
        (hset ▸ Request.write_none hl.1 hw)
  · intro s1
    have hset := (hs.received_frame p bs).set
    rw [exec_management hc hs hgood hkind hdest]
    unfold State.manage
    rw [hset, hnone]
    rfl

/-- Settles O57: the settings that a write leaves are those in force (`takeWrite_set`), from whose own address the answer
goes (`State.answer_queue`). -/
theorem writeTakesSettings : Obligations.WriteTakesSettings := by
  intro p bs r s hreq s1
  refine ⟨fun table new hs hk hok ht hw => ?_, fun hs hlocal hstoring hwaiting => ?_⟩
  · have hframe : Env.Frame s.env s1.env := hs.received_frame p bs
    obtain ⟨n, hloop⟩ : ∃ n, s1.loop = { s.loop with badRun := n } := hs.received_loop p bs
    rw [← hframe.set] at hw
    rw [exec_passed (c := .writeEntry p bs) rfl hs hreq hok, carryOut_write hk ht hw]
    have htime := takeWrite_sameTime table r.index r.group new s1.part
    have hset := takeWrite_set table r.index r.group new s1.part
    refine ⟨_, rfl, ?_⟩
    rw [State.creditWatch_queueOf, State.answer_queue (requestOf_port hreq.2.2.2), State.creditWatch_env, State.answer_env,
      State.change_env, State.change_loop, hset, hloop, Loop.offered_badRun]
    exact ⟨rfl, htime.tow.trans (congrArg Clock.tow hframe.clock), htime.state.trans (congrArg Clock.state hframe.clock),
      htime.now.trans hframe.now, rfl⟩
  · intro locked
    have hset : s1.env.set = s.env.set := (hs.received_frame p bs).set
    obtain ⟨tele, counters, hjobs⟩ := State.received_jobs hs.2 p bs
    have hfree : s1.jobs.store.busy = false := Bool.eq_false_iff.mpr fun h => by
      rw [congrArg Jobs.store hjobs, Store.busy_iff] at h
      simp [hstoring, hwaiting] at h
    have hlock : ∀ b, s1.setLock b = { s1 with env := { s1.env with set := { s.env.set with lock := b } } } := fun b => by
      rw [State.setLock, hset]
    refine ⟨fun hk => ?_, fun hk => ?_⟩
    · rw [exec_passed (c := .setLock p bs) rfl hs hreq (firstFailure_lock (.inl hk) hlocal hfree), carryOut_setLock hk, hlock]
    · rw [exec_passed (c := .clearLock p bs) rfl hs hreq (firstFailure_lock (.inr hk) hlocal hfree), carryOut_clearLock hk, hlock]
end

section
/-!
PROOFS. The two equations of the step, one for each shape of the command queue: what a step does with the command at the front,
and that an empty queue leaves the part idle.
-/

namespace Sys2Proof.Machine

variable {c : Instr} {rest : List Instr} {s : State}

/-- The front command is taken off before it is executed, so that it does not see itself among the commands that wait. -/
theorem step_of_pending_cons (h : s.pending = c :: rest) : step s = exec c { s with pending := rest } := by
  rw [step, h]

theorem step_of_pending_nil (h : s.pending = []) : step s = .next s := by
  rw [step, h]

end Sys2Proof.Machine

open Sys2Proof Sys2Proof.Machine

/-- Settles O1, by the step's equation for each shape of the queue; a command put at the front and taken off again leaves the
part as it was. -/
theorem stepRunsFrontCommand : Obligations.StepRunsFrontCommand :=
  ⟨fun c s => step_of_pending_cons (s := { s with pending := c :: s.pending }) rfl, fun _ => step_of_pending_nil⟩
end
